-- ==== Sys2Proof/Word.lean ====
section
/-! DEFINITION. The two bit-vector types of the block (00_scope.md R8, R9): the 16-bit command word and the
8-bit register, operand and remainder. All values are unsigned; bit 0 is the least significant bit. -/

namespace Sys2Proof

/-- A command word, `cmd_word[15:0]` (R54, R70). -/
abbrev Word := BitVec 16

/-- An 8-bit register, operand, remainder or status byte (R8). -/
abbrev Byte := BitVec 8

end Sys2Proof
end

