-- ==== Sys2Proof/Machine/Ports.lean ====
section
/-! DEFINITION. The ports of the block: what one cycle samples (10_state.md R23) and what it drives (R25). -/

namespace Sys2Proof.Machine

/-- The input ports, sampled every cycle (R23). One-bit ports are Booleans, 1 being true. -/
structure Inputs where
  /-- `rst`: synchronous reset, active high (R230). -/
  rst : Bool
  /-- `cmd_valid`: a command word is present this cycle. -/
  cmdValid : Bool
  /-- `cmd_word`: ignored when `cmd_valid` is 0 (R110). -/
  cmdWord : Word
  /-- `rd_addr`: register read address (R40). -/
  rdAddr : BitVec 3
  /-- `tick`: one time unit has elapsed (R24). -/
  tick : Bool
  /-- `xreq_ready`: the transport accepts the request presented this cycle. -/
  xreqReady : Bool
  /-- `xrsp_valid`: the transport delivers a response this cycle. -/
  xrspValid : Bool
  /-- `xrsp_err`: the response is a transport error. -/
  xrspErr : Bool
  /-- `xrsp_data`: the byte read. -/
  xrspData : Byte
deriving DecidableEq, Repr, Inhabited

/-- The output ports, computed every cycle (R25). -/
structure Outputs where
  rdData : Byte
  xreqValid : Bool
  /-- 0 (false) is a write, 1 (true) a read. -/
  xreqKind : Bool
  xreqCode : Byte
  xreqParam : Byte
  done : Bool
deriving DecidableEq, Repr

/-- A cycle in which nothing happens at any input port: the notation "inputs not listed are 0" of the spec's
traces (95_test_vectors.md, Notation). -/
def Inputs.quiet : Inputs :=
  { rst := false, cmdValid := false, cmdWord := 0, rdAddr := 0, tick := false,
    xreqReady := false, xrspValid := false, xrspErr := false, xrspData := 0 }

/-- A cycle that presents the command word `w` and nothing else. -/
def Inputs.command (w : Word) : Inputs := { Inputs.quiet with cmdValid := true, cmdWord := w }

/-- A cycle in which the transport accepts a request, and nothing else. -/
def Inputs.ready : Inputs := { Inputs.quiet with xreqReady := true }

/-- A cycle in which the transport delivers the byte `d` without error, and nothing else. -/
def Inputs.response (d : Byte) : Inputs := { Inputs.quiet with xrspValid := true, xrspData := d }

/-- A cycle in which the transport delivers an error, and nothing else. -/
def Inputs.errorResponse : Inputs := { Inputs.quiet with xrspValid := true, xrspErr := true }

/-- A cycle in which a time unit passes, and nothing else. -/
def Inputs.ticking : Inputs := { Inputs.quiet with tick := true }

/-- All output ports at 0. -/
def Outputs.zero : Outputs :=
  { rdData := 0, xreqValid := false, xreqKind := false, xreqCode := 0, xreqParam := 0, done := false }

end Sys2Proof.Machine
end

