-- ==== Sys2Proof/Config.lean ====
section
/-! DEFINITION. What one built block fixes (00_scope.md R7), and the free values: the inputs of a cycle that
nothing states, and the real length of a time unit. -/

namespace Sys2Proof

/-- The parameter record of R7 ("A model takes the parameters as a configuration record"). The transport latency
of that table is no field: it is a free input of every cycle (U4). -/
structure Params where
  /-- `P_POLY_REFL` -/
  polyRefl : Byte
  /-- `P_CRC_INIT` -/
  crcInit : Byte
  /-- `P_ID_BYTES` -/
  idBytes : Nat
  /-- `P_BUSY_BIT` -/
  busyBit : Nat
  /-- `P_SRP_CMD` -/
  srpCmd : Byte
  /-- `P_STATUS_PTR` -/
  statusPtr : Byte
  /-- `P_TMO_RESET`, in time units -/
  tmoReset : Byte
  /-- `T_UNIT`, the real time between two ticks; no rule reads it -/
  timeUnit : Nat
deriving DecidableEq, Repr

/-- DESIGN CHOICE (log 9), safe: `T_UNIT` is OPEN in R7, so it is a number nothing is known of. -/
opaque Config.timeUnit : Nat

/-- DESIGN CHOICE (log 2), safe: the inputs of a cycle that `State.inputs` no longer lists. The host, the transport
and the time base are outside the block and their inputs are `any value` (U4, U5): nothing is known of them. -/
opaque Config.freeInputs : Nat → Machine.Inputs

/-- The values R7 decides. UNVERIFIED (log 8): the spec takes the initial CRC value, the busy bit and the two
set-read-pointer bytes from general knowledge (93_implementation_defined.md I3 to I6). -/
def Config.params : Params :=
  { polyRefl := 0x8C, crcInit := 0x00, idBytes := 8, busyBit := 0, srpCmd := 0xE1, statusPtr := 0xF0,
    tmoReset := 20, timeUnit := Config.timeUnit }

end Sys2Proof
end

