-- ==== Sys2Proof/Syntax.lean ====
section
/-! DEFINITION. The commands (30_encoding.md R72), one constructor per row of the opcode table, and the lines of the
assembler's source text (R80, R81). -/

namespace Sys2Proof

/-- A decoded legal command. Operands are as R71 assembles them: `S` a Boolean, `D` an unsigned byte used as is. -/
inductive Instr where
  /-- `NOP` (R106) -/
  | nop
  /-- `CRC.CLR` (R124) -/
  | crcClr
  /-- `CRC.BYTE d` (R125) -/
  | crcByte (d : Byte)
  /-- `WAIT.READY` (`s` false) and `WAIT.READY sp` (`s` true) (R152) -/
  | waitReady (s : Bool)
  /-- `SET.TMO d` (R154) -/
  | setTmo (d : Byte)
  /-- `CLR.ERR` (R108) -/
  | clrErr
deriving DecidableEq, Repr

/-- One line of source text, before its operand ranges are checked (R80): the six commands, the `.word` directive and
the four pseudo-commands of R81. Numbers are what the text says, so they may lie outside their range. -/
inductive AsmLine where
  | nop
  | crcClr
  | crcByte (d : Nat)
  | waitReady (sp : Bool)
  | setTmo (d : Nat)
  | clrErr
  /-- `.word 0xNNNN`: the word is placed as is. -/
  | word (w : Nat)
  /-- `CRC.CHECK8 b0,...,b7` -/
  | crcCheck8 (bs : List Nat)
  /-- `CRC.GEN7 b0,...,b6` -/
  | crcGen7 (bs : List Nat)
  | waitCmd
  | waitResult
deriving DecidableEq, Repr

end Sys2Proof
end

