-- ==== Sys2Proof/WellFormed.lean ====
section
/-! DEFINITION. The checks on syntax. A decoded command (`Instr`) needs none: its operands are a Boolean and a byte,
and R71 and R72 admit every value of both, so each of the 517 values of the type is a legal command. The checks stand
where a number is still a number: the source line (R80, R81) and the parameter record (R7, R31). -/

namespace Sys2Proof

/-- "integer 0 to 255" (R80). -/
def operandInRange (d : Nat) : Bool := decide (d < 256)

/-- "An operand outside 0 to 255 is an assembly error, not a command." (R80); `.word` takes a 16-bit word; the
pseudo-commands take exactly 8 and 7 bytes (R81). -/
def AsmLine.wellFormed : AsmLine → Bool
  | .nop => true
  | .crcClr => true
  | .crcByte d => operandInRange d
  | .waitReady _ => true
  | .setTmo d => operandInRange d
  | .clrErr => true
  | .word w => decide (w < 65536)
  | .crcCheck8 bs => bs.length == 8 && bs.all operandInRange
  | .crcGen7 bs => bs.length == 7 && bs.all operandInRange
  | .waitCmd => true
  | .waitResult => true

/-- The busy bit lies in the status byte (R170), CNT counts to the identifier length in 4 bits (R8), and the reset
deadline is a legal one (R31). -/
def Params.wellFormed (P : Params) : Bool :=
  decide (P.busyBit < 8) && decide (1 ≤ P.idBytes) && decide (P.idBytes < 16) && decide (P.tmoReset ≠ 0)

end Sys2Proof
end

