-- ==== Sys2Proof/Decode.lean ====
section
/-! DEFINITION. The decoder (30_encoding.md R73), total on 16-bit words and rejecting by name (R74), and the encoder
written from the same format (R70, R72). -/

namespace Sys2Proof

/-- Why a word is illegal: the four causes R74 lists. The machine keeps nothing of it (R201); where several causes
hold the first that R73's tests meet is named (DESIGN CHOICE, log 10, safe). -/
inductive IllegalCause where
  /-- a nonzero `Z` -/
  | reservedField
  /-- a reserved opcode, OP 0x6 to 0xF -/
  | reservedOpcode
  /-- a nonzero `S` outside WAIT.READY -/
  | pointerFlag
  /-- a nonzero `D` outside CRC.BYTE and SET.TMO -/
  | dataField
deriving DecidableEq, Repr

/-- What a word decodes to: one of the six commands or ILLEGAL (R73). -/
inductive Decoded where
  | command (i : Instr)
  | illegal (why : IllegalCause)
deriving DecidableEq, Repr

/-- `OP`, bits 15:12 (R70). -/
def fieldOp (w : Word) : BitVec 4 := w.extractLsb' 12 4

/-- `Z`, bits 11:9 (R70). -/
def fieldZ (w : Word) : BitVec 3 := w.extractLsb' 9 3

/-- `S`, bit 8 (R70). -/
def fieldS (w : Word) : Bool := w.getLsbD 8

/-- `D`, bits 7:0 (R70). -/
def fieldD (w : Word) : Byte := w.extractLsb' 0 8

/-- A command that requires S = 0 (R73). -/
def needsS0 (w : Word) (r : Decoded) : Decoded := if fieldS w then .illegal .pointerFlag else r

/-- A command that requires D = 0 (R73). -/
def needsD0 (w : Word) (r : Decoded) : Decoded := if fieldD w ≠ 0 then .illegal .dataField else r

/-- R73, arm by arm. -/
def decodeWord (w : Word) : Decoded :=
  if fieldZ w ≠ 0 then .illegal .reservedField
  else match (fieldOp w).toNat with
    | 0 => needsS0 w (needsD0 w (.command .nop))
    | 1 => needsS0 w (needsD0 w (.command .crcClr))
    | 2 => needsS0 w (.command (.crcByte (fieldD w)))
    | 3 => needsD0 w (.command (.waitReady (fieldS w)))
    | 4 => needsS0 w (.command (.setTmo (fieldD w)))
    | 5 => needsS0 w (needsD0 w (.command .clrErr))
    | _ => .illegal .reservedOpcode

/-- The word with the fields `OP`, `Z` = 0, `S`, `D` (R70). -/
def packWord (op : BitVec 4) (s : Bool) (d : Byte) : Word :=
  (op.setWidth 16 <<< 12) ||| ((BitVec.ofBool s).setWidth 16 <<< 8) ||| d.setWidth 16

/-- The one word of a command (R72). -/
def encode : Instr → Word
  | .nop => packWord 0x0 false 0
  | .crcClr => packWord 0x1 false 0
  | .crcByte d => packWord 0x2 false d
  | .waitReady s => packWord 0x3 s 0
  | .setTmo d => packWord 0x4 false d
  | .clrErr => packWord 0x5 false 0

/-- One row of R72's mask and match table: a word `w` is the command iff `w & mask = pattern`. -/
structure OpcodeRow where
  mnemonic : String
  mask : Word
  pattern : Word
deriving DecidableEq, Repr

/-- The word `w` matches the row. -/
def OpcodeRow.matchesWord (r : OpcodeRow) (w : Word) : Bool := w &&& r.mask == r.pattern

/-- The row of each command, as R72's table has it. -/
def Instr.row : Instr → OpcodeRow
  | .nop => ⟨"NOP", 0xFFFF, 0x0000⟩
  | .crcClr => ⟨"CRC.CLR", 0xFFFF, 0x1000⟩
  | .crcByte _ => ⟨"CRC.BYTE", 0xFF00, 0x2000⟩
  | .waitReady _ => ⟨"WAIT.READY", 0xFEFF, 0x3000⟩
  | .setTmo _ => ⟨"SET.TMO", 0xFF00, 0x4000⟩
  | .clrErr => ⟨"CLR.ERR", 0xFFFF, 0x5000⟩

/-- The table of R72 in its order. -/
def opcodeRows : List OpcodeRow :=
  [Instr.nop.row, Instr.crcClr.row, (Instr.crcByte 0).row, (Instr.waitReady false).row, (Instr.setTmo 0).row,
    Instr.clrErr.row]

/-- The command the decoder reads from the table's bits `w` of a row of `nbits` bits; bits above `nbits` are 0. The
command word has 16 bits and no byte order (R54, R75; log 12), so more than 16 bits are no command. -/
def decodeTableWord (nbits w : Nat) : Option Instr :=
  if nbits ≤ 16 ∧ w < 2 ^ nbits then
    match decodeWord (BitVec.ofNat 16 w) with
    | .command i => some i
    | .illegal _ => none
  else none

end Sys2Proof
end

