-- ==== Sys2Proof/Machine/State.lean ====
section
/-! DEFINITION. The state of the block: the eleven elements of 10_state.md R22, and three fields of the model's own
(the inputs to come, the cycle number, the outputs of the last cycle), which R100 has as arguments and results of the
step. Reset values: 70_reset_and_hazards.md R230. -/

namespace Sys2Proof.Machine

/-- The wait FSM state (R26). The codes 6 and 7 are no values of the type: "A model may use a six-valued
enumeration". -/
inductive Fst where
  | idle
  | spReq
  | spWait
  | rdReq
  | rdWait
  | drain
deriving DecidableEq, Repr

/-- The result of the most recent wait (R27). -/
inductive Res where
  | none
  | ready
  | timeout
  | xerr
deriving DecidableEq, Repr

/-- The verdict on an identifier (R42). -/
inductive Verdict where
  | incomplete
  | valid
  | romInvalid
  | crcMismatch
deriving DecidableEq, Repr

/-- The errors of the error table (60_exceptions.md R208). They are records in registers, never traps. -/
inductive ErrorKind where
  | illegal
  | rejected
  | timeout
  | xerr
  | romInvalid
  | crcMismatch
  | overrun
deriving DecidableEq, Repr

/-- The write set `Wf` of the wait FSM in one cycle (R100, R105): it may write ELAP, FST, RES and STAT, and an
element that is `none` is not written. -/
structure FsmWrites where
  elap : Option Byte
  fst : Option Fst
  res : Option Res
  stat : Option Byte
deriving DecidableEq, Repr

/-- The state. -/
structure State where
  /-- `CRC`, the running remainder (R29). -/
  crc : Byte
  /-- `CNT`, the bytes fed, 0 to 8 (R29). -/
  cnt : BitVec 4
  /-- `FAM`, the first byte fed (R29). -/
  fam : Byte
  /-- `OVF`, sticky overrun flag (R29). -/
  ovf : Bool
  /-- `TMO`, the timeout register, 1 to 255 (R31). -/
  tmo : Byte
  /-- `ELAP`, the ticks of the current or last wait (R32). -/
  elap : Byte
  /-- `FST` (R26). -/
  fst : Fst
  /-- `RES` (R27). -/
  res : Res
  /-- `STAT`, the last status byte read (R30). -/
  stat : Byte
  /-- `REJ`, sticky (R28). -/
  rej : Bool
  /-- `ILL`, sticky (R28). -/
  ill : Bool
  /-- The model's own (log 1): the inputs of the coming cycles, the next cycle's first. -/
  inputs : List Inputs
  /-- The model's own (log 2): how many cycles have run; it numbers the free inputs. -/
  cycle : Nat
  /-- The model's own (log 3): the outputs of the cycle that ended last. -/
  out : Outputs
deriving DecidableEq, Repr

/-- Reasons to stop with a fault: there are none, so the type has no constructor. "The block never traps." (R200):
every error is a record in a register and the block goes on. Nobody raises a fault; that is exact, hence safe. -/
inductive Fault
deriving DecidableEq, Repr

/-- Reasons to give no meaning. -/
inductive Refusal where
  /-- Raised by an arm of `exec` whose command has no meaning yet; no arm of this model raises it. Safe. -/
  | notModelled (mnemonic : String)
  /-- Raised by a cycle without `rst` in a state whose CNT is above 8 or whose TMO is 0: a state from before the first
  reset, to which R232 "gives no meaning" (93_implementation_defined.md U1, U2 `refuse`; log 4). No run from reset
  meets it. Safe. -/
  | noResetApplied
deriving DecidableEq, Repr

/-- `RESET_STATE(P)` (R230), with no input listed, no cycle run and all outputs 0 (logs 1 to 3). -/
def State.reset : State :=
  { crc := Config.params.crcInit, cnt := 0, fam := 0, ovf := false,
    tmo := Config.params.tmoReset, elap := 0, fst := .idle, res := .none, stat := 0,
    rej := false, ill := false,
    inputs := [], cycle := 0, out := Outputs.zero }

end Sys2Proof.Machine
end

