-- ==== Sys2Proof/Machine/Flags.lean ====
section
/-! DEFINITION. The flags a program observes (10_state.md R33), the codes of the enumerated elements (R26, R27, R42),
the deadline test (42_busy_poll.md R165) and the busy test (R170). -/

namespace Sys2Proof.Machine

/-- The 3-bit code of FST (R26). -/
def Fst.code : Fst → BitVec 3
  | .idle => 0
  | .spReq => 1
  | .spWait => 2
  | .rdReq => 3
  | .rdWait => 4
  | .drain => 5

/-- A wait is active in SP_REQ, SP_WAIT, RD_REQ and RD_WAIT (R165). -/
def Fst.isActive : Fst → Bool
  | .idle => false
  | .spReq => true
  | .spWait => true
  | .rdReq => true
  | .rdWait => true
  | .drain => false

/-- A request is presented in SP_REQ and RD_REQ (R162). -/
def Fst.isRequesting : Fst → Bool
  | .idle => false
  | .spReq => true
  | .spWait => false
  | .rdReq => true
  | .rdWait => false
  | .drain => false

/-- OUTST: a transaction is outstanding in SP_WAIT, RD_WAIT and DRAIN (R34). -/
def Fst.isOutstanding : Fst → Bool
  | .idle => false
  | .spReq => false
  | .spWait => true
  | .rdReq => false
  | .rdWait => true
  | .drain => true

/-- The 2-bit code of RES (R27). -/
def Res.code : Res → BitVec 2
  | .none => 0
  | .ready => 1
  | .timeout => 2
  | .xerr => 3

/-- The 2-bit code of a verdict (R42). -/
def Verdict.code : Verdict → BitVec 2
  | .incomplete => 0
  | .valid => 1
  | .romInvalid => 2
  | .crcMismatch => 3

/-- CRCST.FULL (R41). -/
def fullFlag (P : Params) (s : State) : Bool := s.cnt.toNat == P.idBytes

/-- CRCST.ZERO (R41). -/
def zeroFlag (s : State) : Bool := s.crc == 0

/-- CRCST.FAMZ (R41). -/
def famzFlag (s : State) : Bool := decide (1 ≤ s.cnt.toNat) && s.fam == 0

/-- The verdict (R42): ROM_INVALID wins over CRC_MISMATCH, and OVF plays no part (R43). -/
def verdict (P : Params) (s : State) : Verdict :=
  if s.cnt.toNat < P.idBytes then .incomplete
  else if s.fam = 0 then .romInvalid
  else if s.crc ≠ 0 then .crcMismatch
  else .valid

/-- The busy flag of a status byte (R170). -/
def isBusy (P : Params) (b : Byte) : Bool := b.getLsbD P.busyBit

/-- The cycle counts a tick (R165). -/
def countsTick (s : State) (inp : Inputs) : Bool := s.fst.isActive && inp.tick

/-- `hit` (R165): the tick that brings ELAP to TMO. The comparison is of unsigned numbers with no wrap, as on 9 bits. -/
def deadlineHit (s : State) (inp : Inputs) : Bool :=
  countsTick s inp && decide (s.tmo.toNat ≤ s.elap.toNat + 1)

/-- CNT and TMO hold legal values (R22). A state without this comes from before the first reset (R232, U2). -/
def inLegalRange (P : Params) (s : State) : Bool :=
  decide (s.cnt.toNat ≤ P.idBytes) && decide (s.tmo ≠ 0)

end Sys2Proof.Machine
end

