-- ==== Sys2Proof/Machine/Operands.lean ====
section
/-! DEFINITION. The operand forms (30_encoding.md R71). There are two operands: the set-pointer flag `S` and the data
byte `D`. CRC.BYTE uses `D` as is; the two other uses stand here. -/

namespace Sys2Proof.Machine

/-- `S` of WAIT.READY: where the wait starts (R152). -/
def waitStart (s : Bool) : Fst := if s then .spReq else .rdReq

/-- `D` of SET.TMO: write-any-read-legal, "0 is stored as 1" (R31, R154). -/
def legalTmo (d : Byte) : Byte := if d = 0 then 1 else d

end Sys2Proof.Machine
end

