-- ==== Sys2Proof/Machine/Ops.lean ====
section
/-! DEFINITION. The named operations on the state that the meanings and the cycle share. There is no memory (20_memory.md
R50), no register file (10_state.md R20) and no exception to take (60_exceptions.md R200, R212): an error is recorded
by `flagIllegal` or `reject`. -/

namespace Sys2Proof.Machine

/-- The inputs of the coming cycle: the first listed, else the free inputs of that cycle (log 2). -/
def State.nextInputs (s : State) : Inputs :=
  match s.inputs with
  | [] => Config.freeInputs s.cycle
  | i :: _ => i

/-- `s` with `inp` as the inputs of its coming cycle, before those already listed. -/
def State.present (s : State) (inp : Inputs) : State := { s with inputs := inp :: s.inputs }

/-- The record of an illegal word, `ILL <- 1` (R103, R201). -/
def State.flagIllegal (s : State) : State := { s with ill := true }

/-- The record of a rejected command, `REJ <- 1` (R104, R202). -/
def State.reject (s : State) : State := { s with rej := true }

/-- `REJ <- 0; ILL <- 0` (R108). -/
def State.clearErrors (s : State) : State := { s with rej := false, ill := false }

/-- The write set of CRC.CLR (R124). -/
def State.clearCrc (P : Params) (s : State) : State :=
  { s with crc := P.crcInit, cnt := 0, fam := 0, ovf := false }

/-- The CRC unit takes a byte: the new remainder, the count, and the family code at the first byte (R125, R126). -/
def State.takeByte (s : State) (remainder d : Byte) : State :=
  { s with crc := remainder, cnt := s.cnt + 1, fam := if s.cnt = 0 then d else s.fam }

/-- A byte fed to a full unit, `OVF <- 1` (R127, R207). -/
def State.overrun (s : State) : State := { s with ovf := true }

/-- The start of an accepted wait at `f` (R152). -/
def State.startWait (s : State) (f : Fst) : State := { s with elap := 0, res := .none, fst := f }

/-- `TMO <- v` (R154). -/
def State.writeTmo (s : State) (v : Byte) : State := { s with tmo := v }

/-- WAIT.READY and SET.TMO are accepted in IDLE and rejected in every other FSM state (R102, R153, R154). -/
def acceptInIdle (s accepted : State) : State := if s.fst = .idle then accepted else s.reject

/-- The writes of the wait FSM; an element not written keeps its value (R10, R100). -/
def State.applyFsm (s : State) (w : FsmWrites) : State :=
  { s with
    elap := w.elap.getD s.elap
    fst := w.fst.getD s.fst
    res := w.res.getD s.res
    stat := w.stat.getD s.stat }

/-- The block's elements take the values of `RESET_STATE(P)` (R230); the model's own fields are the environment's and
keep theirs. -/
def State.loadReset (P : Params) (s : State) : State :=
  { s with
    crc := P.crcInit, cnt := 0, fam := 0, ovf := false
    tmo := P.tmoReset, elap := 0, fst := .idle, res := .none, stat := 0
    rej := false, ill := false }

/-- The clock edge: the cycle's inputs are consumed, and its outputs are what was seen. -/
def State.endCycle (s : State) (o : Outputs) : State :=
  { s with inputs := s.inputs.tail, cycle := s.cycle + 1, out := o }

/-- The inputs of a cycle in which the host presents the table's bits `w` of a row of `nbits` bits (log 12). -/
def tableCycle (nbits w : Nat) : Inputs := Inputs.command (BitVec.ofNat 16 (w % 2 ^ nbits))

end Sys2Proof.Machine
end

