-- ==== Sys2Proof/Machine/Common.lean ====
section
/-! DEFINITION. The commands of neither sub-unit (40_cycle.md): NOP and CLR.ERR. -/

namespace Sys2Proof.Machine

/-- NOP (R106): no write. -/
def execNop (s : State) : Host.Outcome State Fault Refusal := .next s

/-- CLR.ERR (R108): REJ and ILL are cleared, nothing else is touched. -/
def execClrErr (s : State) : Host.Outcome State Fault Refusal := .next s.clearErrors

end Sys2Proof.Machine
end

