-- ==== Sys2Proof/Machine/Crc.lean ====
section
/-! DEFINITION. The CRC unit (41_crc8.md): the byte-parallel function and the commands CRC.CLR and CRC.BYTE. -/

namespace Sys2Proof.Machine

/-- One reflected division step without an input bit (R121). -/
def step0 (P : Params) (x : Byte) : Byte := if x.getLsbD 0 then (x >>> 1) ^^^ P.polyRefl else x >>> 1

/-- The byte-parallel function T8 (R121). -/
def t8 (P : Params) (x : Byte) : Byte :=
  step0 P (step0 P (step0 P (step0 P (step0 P (step0 P (step0 P (step0 P x)))))))

/-- The remainder `c` after the byte `d`: `T8(c ^ d)` (R121, R125). -/
def crcNext (P : Params) (c d : Byte) : Byte := t8 P (c ^^^ d)

/-- CRC.CLR (R124). -/
def execCrcClr (s : State) : Host.Outcome State Fault Refusal := .next (s.clearCrc Config.params)

/-- CRC.BYTE d (R125 to R127): a unit that is not full takes the byte, a full one records the overrun. -/
def execCrcByte (d : Byte) (s : State) : Host.Outcome State Fault Refusal :=
  if s.cnt.toNat < Config.params.idBytes then .next (s.takeByte (crcNext Config.params s.crc d) d)
  else .next s.overrun

end Sys2Proof.Machine
end

