-- ==== Sys2Proof/Machine/Wait.lean ====
section
/-! DEFINITION. The wait FSM (42_busy_poll.md): the commands WAIT.READY and SET.TMO, and the FSM's own part of a cycle. -/

namespace Sys2Proof.Machine

/-- WAIT.READY (R152, R153). -/
def execWaitReady (sp : Bool) (s : State) : Host.Outcome State Fault Refusal :=
  .next (acceptInIdle s (s.startWait (waitStart sp)))

/-- SET.TMO d (R154). -/
def execSetTmo (d : Byte) (s : State) : Host.Outcome State Fault Refusal :=
  .next (acceptInIdle s (s.writeTmo (legalTmo d)))

/-- The tick count's write, `ELAP <- s.ELAP + 1` (R165). -/
def tickWrite (s : State) (inp : Inputs) : Option Byte := if countsTick s inp then some (s.elap + 1) else none

/-- The wait ends with result `r` in state `f`; `st` is the status byte stored, if any. `done` is 1 (R172). -/
def endWait (e st : Option Byte) (r : Res) (f : Fst) : FsmWrites × Bool := (⟨e, some f, some r, st⟩, true)

/-- The wait does not end in this cycle. -/
def goOn (e st : Option Byte) (f : Option Fst) : FsmWrites × Bool := (⟨e, f, none, st⟩, false)

/-- SP_REQ and RD_REQ (R167); `w` is the matching wait state. -/
def requestStep (e : Option Byte) (hit accepted : Bool) (w : Fst) : FsmWrites × Bool :=
  if hit then endWait e none .timeout (if accepted then .drain else .idle)
  else if accepted then goOn e none (some w)
  else goOn e none none

/-- `FsmStep(P, s, in)` (R166), arm by arm: the write set and `done`. -/
def fsmStep (P : Params) (s : State) (inp : Inputs) : FsmWrites × Bool :=
  let e := tickWrite s inp
  let hit := deadlineHit s inp
  match s.fst with
  | .idle => goOn none none none
  | .spReq => requestStep e hit inp.xreqReady .spWait
  | .rdReq => requestStep e hit inp.xreqReady .rdWait
  | .spWait =>
    if inp.xrspValid && inp.xrspErr then endWait e none .xerr .idle
    else if inp.xrspValid then
      if hit then endWait e none .timeout .idle else goOn e none (some .rdReq)
    else if hit then endWait e none .timeout .drain
    else goOn e none none
  | .rdWait =>
    if inp.xrspValid && inp.xrspErr then endWait e none .xerr .idle
    else if inp.xrspValid then
      if !isBusy P inp.xrspData then endWait e (some inp.xrspData) .ready .idle
      else if hit then endWait e (some inp.xrspData) .timeout .idle
      else goOn e (some inp.xrspData) (some .rdReq)
    else if hit then endWait e none .timeout .drain
    else goOn e none none
  | .drain => if inp.xrspValid then goOn none none (some .idle) else goOn none none none

end Sys2Proof.Machine
end

