-- ==== Sys2Proof/Machine/Dispatch.lean ====
section
/-! DEFINITION. `exec`: one arm per command, each a direct call of its meaning. It is `Exec(P, s, c)` of 40_cycle.md R101
for a legal command `c`, applied to the state. -/

namespace Sys2Proof.Machine

def exec (i : Instr) (s : State) : Host.Outcome State Fault Refusal :=
  match i with
  | .nop => Sys2Proof.Machine.execNop s
  | .crcClr => Sys2Proof.Machine.execCrcClr s
  | .crcByte d => Sys2Proof.Machine.execCrcByte d s
  | .waitReady sp => Sys2Proof.Machine.execWaitReady sp s
  | .setTmo d => Sys2Proof.Machine.execSetTmo d s
  | .clrErr => Sys2Proof.Machine.execClrErr s

end Sys2Proof.Machine
end

