-- ==== Sys2Proof/Machine/ReadPort.lean ====
section
/-! DEFINITION. The register read view (10_state.md R40 to R46, 40_cycle.md R109), the error records of the error table
(60_exceptions.md R208) and the output ports of a cycle (R25, R100). -/

namespace Sys2Proof.Machine

/-- CRCST (R41): OVF, FAMZ, ZERO, FULL, CNT from bit 7 down. -/
def regCrcst (P : Params) (s : State) : Byte :=
  BitVec.ofBool s.ovf ++ BitVec.ofBool (famzFlag s) ++ BitVec.ofBool (zeroFlag s) ++
    BitVec.ofBool (fullFlag P s) ++ s.cnt

/-- CRCRES (R42): the verdict in bits 1:0, bits 7:2 read 0. -/
def regCrcres (P : Params) (s : State) : Byte := 0#6 ++ (verdict P s).code

/-- WST (R44): OUTST, ILL, REJ, RES, FST from bit 7 down. -/
def regWst (s : State) : Byte :=
  BitVec.ofBool s.fst.isOutstanding ++ BitVec.ofBool s.ill ++ BitVec.ofBool s.rej ++ s.res.code ++ s.fst.code

/-- `Reg(s, a)` (R109). -/
def reg (P : Params) (s : State) (a : BitVec 3) : Byte :=
  match a.toNat with
  | 0 => s.crc
  | 1 => regCrcst P s
  | 2 => s.fam
  | 3 => regCrcres P s
  | 4 => regWst s
  | 5 => s.stat
  | 6 => s.tmo
  | _ => s.elap

/-- The whole register view, addresses 0 to 7 in order (95_test_vectors.md, Notation). -/
def view (P : Params) (s : State) : List Byte :=
  [reg P s 0#3, reg P s 1#3, reg P s 2#3, reg P s 3#3, reg P s 4#3, reg P s 5#3, reg P s 6#3, reg P s 7#3]

/-- The register field that records each error holds the error's code (R208). -/
def recorded (P : Params) (s : State) : ErrorKind → Bool
  | .illegal => (reg P s 4#3).getLsbD 6
  | .rejected => (reg P s 4#3).getLsbD 5
  | .timeout => (reg P s 4#3).extractLsb' 3 2 == 2#2
  | .xerr => (reg P s 4#3).extractLsb' 3 2 == 3#2
  | .romInvalid => (reg P s 3#3).extractLsb' 0 2 == 2#2
  | .crcMismatch => (reg P s 3#3).extractLsb' 0 2 == 3#2
  | .overrun => (reg P s 1#3).getLsbD 7

/-- The output ports of the cycle with inputs `inp` from the start-of-cycle state `s` (R25, R100). -/
def outputs (P : Params) (s : State) (inp : Inputs) : Outputs :=
  { rdData := reg P s inp.rdAddr
    xreqValid := !inp.rst && s.fst.isRequesting
    xreqKind := s.fst == .rdReq
    xreqCode := if s.fst = .spReq then P.srpCmd else 0
    xreqParam := if s.fst = .spReq then P.statusPtr else 0
    done := !inp.rst && (fsmStep P s inp).2 }

end Sys2Proof.Machine
end

