-- ==== Sys2Proof/Machine/Cycle.lean ====
section
/-! DEFINITION. One clock cycle of the whole block (40_cycle.md R100). -/

namespace Sys2Proof.Machine

/-- Command consumption (R101, R103, R110): the command's own writes, ILL for an illegal word, nothing without a
command. -/
def consume (inp : Inputs) (s : State) : Host.Outcome State Fault Refusal :=
  if inp.cmdValid then
    match decodeWord inp.cmdWord with
    | .command i => exec i s
    | .illegal _ => .next s.flagIllegal
  else .next s

/-- The cycle with inputs `inp` (R100). The FSM's write set and the outputs are computed from the start-of-cycle state
`s` (R10); the command's writes are applied first and the FSM's second, which cannot be told apart (R105; log 7).
A cycle with `rst` loads the reset state from any state (R230); one without `rst` needs a state that a reset has made
legal (R232; log 4). -/
def runCycle (P : Params) (inp : Inputs) (s : State) : Host.Outcome State Fault Refusal :=
  if inp.rst then .next ((s.loadReset P).endCycle (outputs P s inp))
  else if inLegalRange P s then
    match consume inp s with
    | .next t => .next ((t.applyFsm (fsmStep P s inp).1).endCycle (outputs P s inp))
    | .fault f => .fault f
    | .refused r => .refused r
  else .refused .noResetApplied

end Sys2Proof.Machine
end

