-- ==== Sys2Proof/Machine/Step.lean ====
section
/-! DEFINITION. The step of the machine: one clock cycle with the inputs that come next. -/

namespace Sys2Proof.Machine

/-- One cycle (R100) with the next inputs. -/
def step (s : State) : Host.Outcome State Fault Refusal := runCycle Config.params s.nextInputs s

/-- `s` whose next cycle presents the table's bits `w`: a cycle with that command word and every other input 0 is put
before the listed ones (log 12). The block fetches nothing (R21), so this stands for the host that presents it. -/
def State.withFetchWord (s : State) (nbits w : Nat) : State := s.present (tableCycle nbits w)

end Sys2Proof.Machine
end

