-- ==== Sys2Proof/Machine/Assembler.lean ====
section
/-! DEFINITION. The assembler (00_scope.md R12, 30_encoding.md R80, R81): the words a source line stands for, and the
reading of a line of text. The block sees words only; this is how test programs are written (D28). -/

namespace Sys2Proof.Machine

/-- The word of `CRC.BYTE b`. -/
def crcByteWord (b : Nat) : Word := encode (.crcByte (BitVec.ofNat 8 b))

/-- The words of a line whose operands are in range (R80, R81). -/
def wordsOf : AsmLine → List Word
  | .nop => [encode .nop]
  | .crcClr => [encode .crcClr]
  | .crcByte d => [crcByteWord d]
  | .waitReady sp => [encode (.waitReady sp)]
  | .setTmo d => [encode (.setTmo (BitVec.ofNat 8 d))]
  | .clrErr => [encode .clrErr]
  | .word w => [BitVec.ofNat 16 w]
  | .crcCheck8 bs => encode .crcClr :: bs.map crcByteWord
  | .crcGen7 bs => encode .crcClr :: bs.map crcByteWord
  | .waitCmd => [encode (.waitReady true)]
  | .waitResult => [encode (.waitReady false)]

/-- The words of a line, or an assembly error (R80). -/
def assemble (l : AsmLine) : Option (List Word) := if l.wellFormed then some (wordsOf l) else none

/-! ## Reading a line of text (R80). DESIGN CHOICE (log 11): runs of spaces separate as one, hexadecimal digits may be
of either case, leading zeros are allowed, and a line with nothing before its comment stands for no command. -/

/-- The value of a decimal digit. -/
def decDigit (c : Char) : Option Nat := if 48 ≤ c.toNat ∧ c.toNat ≤ 57 then some (c.toNat - 48) else none

/-- The value of a hexadecimal digit. -/
def hexDigit (c : Char) : Option Nat :=
  if 48 ≤ c.toNat ∧ c.toNat ≤ 57 then some (c.toNat - 48)
  else if 65 ≤ c.toNat ∧ c.toNat ≤ 70 then some (c.toNat - 55)
  else if 97 ≤ c.toNat ∧ c.toNat ≤ 102 then some (c.toNat - 87)
  else none

/-- Digits to a number, `acc` being what stands to their left. -/
def digitsValue (digit : Char → Option Nat) (base acc : Nat) : List Char → Option Nat
  | [] => some acc
  | c :: cs =>
    match digit c with
    | some d => digitsValue digit base (acc * base + d) cs
    | none => none

/-- An operand: decimal, or hexadecimal after `0x`. -/
def readNumber : List Char → Option Nat
  | [] => none
  | '0' :: 'x' :: [] => none
  | '0' :: 'x' :: cs => digitsValue hexDigit 16 0 cs
  | cs => digitsValue decDigit 10 0 cs

/-- The pieces between occurrences of `sep`. -/
def splitChars (sep : Char) : List Char → List (List Char)
  | [] => [[]]
  | c :: cs =>
    if c = sep then [] :: splitChars sep cs
    else match splitChars sep cs with
      | [] => [[c]]
      | p :: ps => (c :: p) :: ps

/-- All of the pieces as numbers. -/
def readNumbers : List (List Char) → Option (List Nat)
  | [] => some []
  | p :: ps =>
    match readNumber p, readNumbers ps with
    | some n, some ns => some (n :: ns)
    | _, _ => none

/-- `.word` takes `0x` and four hexadecimal digits. -/
def readWordOperand (cs : List Char) : Option Nat :=
  match cs with
  | ['0', 'x', a, b, c, d] => digitsValue hexDigit 16 0 [a, b, c, d]
  | _ => none

/-- A line's tokens: what stands before the comment, cut at spaces. -/
def tokens (line : List Char) : List (List Char) :=
  (splitChars ' ' (line.takeWhile (fun c => c != ';'))).filter (fun t => !t.isEmpty)

/-- The line a mnemonic and its operand text stand for. -/
def readOperands (mnemonic : List Char) (ops : List (List Char)) : Option AsmLine :=
  match ops with
  | [] =>
    if mnemonic = ['N', 'O', 'P'] then some .nop
    else if mnemonic = ['C', 'R', 'C', '.', 'C', 'L', 'R'] then some .crcClr
    else if mnemonic = ['C', 'L', 'R', '.', 'E', 'R', 'R'] then some .clrErr
    else if mnemonic = ['W', 'A', 'I', 'T', '.', 'R', 'E', 'A', 'D', 'Y'] then some (.waitReady false)
    else if mnemonic = ['W', 'A', 'I', 'T', '.', 'C', 'M', 'D'] then some .waitCmd
    else if mnemonic = ['W', 'A', 'I', 'T', '.', 'R', 'E', 'S', 'U', 'L', 'T'] then some .waitResult
    else none
  | [o] =>
    if mnemonic = ['W', 'A', 'I', 'T', '.', 'R', 'E', 'A', 'D', 'Y'] then
      if o = ['s', 'p'] then some (.waitReady true) else none
    else if mnemonic = ['C', 'R', 'C', '.', 'B', 'Y', 'T', 'E'] then (readNumber o).map .crcByte
    else if mnemonic = ['S', 'E', 'T', '.', 'T', 'M', 'O'] then (readNumber o).map .setTmo
    else if mnemonic = ['.', 'w', 'o', 'r', 'd'] then (readWordOperand o).map .word
    else if mnemonic = ['C', 'R', 'C', '.', 'C', 'H', 'E', 'C', 'K', '8'] then
      (readNumbers (splitChars ',' o)).map .crcCheck8
    else if mnemonic = ['C', 'R', 'C', '.', 'G', 'E', 'N', '7'] then
      (readNumbers (splitChars ',' o)).map .crcGen7
    else none
  | _ => none

/-- The words of a line of text; an assembly error is `none`, and a line that holds only a comment has no words. -/
def assembleText (line : List Char) : Option (List Word) :=
  match tokens line with
  | [] => some []
  | m :: ops =>
    match readOperands m ops with
    | some l => assemble l
    | none => none

/-- The words of a program, one command per line. -/
def assembleProgram : List (List Char) → Option (List Word)
  | [] => some []
  | l :: ls =>
    match assembleText l, assembleProgram ls with
    | some ws, some vs => some (ws ++ vs)
    | _, _ => none

end Sys2Proof.Machine
end

