-- ==== Sys2Proof/Safety.lean ====
section
/-! DEFINITION. The terms the statements are made in: the invariant of runs from reset, runs and the inputs they consume,
the two sub-units of the state, and what an identifier is to the CRC unit. -/

namespace Sys2Proof.Machine

/-- What every state reached from reset meets. -/
structure State.Inv (s : State) : Prop where
  /-- CNT is 0 to 8 (R22, R127). -/
  cnt_legal : s.cnt.toNat ≤ Config.params.idBytes
  /-- TMO is 1 to 255 (R22, R31). -/
  tmo_legal : s.tmo ≠ 0
  /-- While a wait is active its deadline has not been reached (R32, R165). -/
  active_before_deadline : s.fst.isActive = true → s.elap.toNat < s.tmo.toNat
  /-- While a wait is active RES is NONE (R27). -/
  active_no_result : s.fst.isActive = true → s.res = .none
  /-- DRAIN follows a timeout, with ELAP at TMO (R26, R171, R203). -/
  drain_after_timeout : s.fst = .drain → s.res = .timeout ∧ s.elap = s.tmo
  /-- FAM is 0x00 and the remainder is the initial one while no byte has been fed (R29). -/
  empty_unit : s.cnt = 0 → s.fam = 0 ∧ s.crc = Config.params.crcInit
  /-- OVF is set only on a full unit (R29). -/
  overrun_full : s.ovf = true → s.cnt.toNat = Config.params.idBytes
  /-- When RES is READY, STAT holds a status byte that is not busy (R170). -/
  ready_not_busy : s.res = .ready → isBusy Config.params s.stat = false

/-- The inputs of the next `n` cycles. -/
def upcoming : Nat → State → List Inputs
  | 0, _ => []
  | n + 1, s => s.nextInputs :: upcoming n { s with inputs := s.inputs.tail, cycle := s.cycle + 1 }

/-- `n` cycles. -/
def runSteps : Nat → State → Host.Outcome State Fault Refusal
  | 0, s => .next s
  | n + 1, s =>
    match step s with
    | .next t => runSteps n t
    | .fault f => .fault f
    | .refused r => .refused r

/-- The states after each of the next `n` cycles; the list is shorter when the machine stops. -/
def trace : Nat → State → List State
  | 0, _ => []
  | n + 1, s =>
    match step s with
    | .next t => t :: trace n t
    | .fault _ => []
    | .refused _ => []

/-- How many of the cycles have `tick` = 1. -/
def ticksIn (ins : List Inputs) : Nat := ins.countP (fun i => i.tick)

/-- No reset in any of the cycles. -/
def noReset (ins : List Inputs) : Bool := ins.all (fun i => !i.rst)

/-- The next cycle is no reset and presents a word that decodes to the command `c`. -/
def presents (inp : Inputs) (c : Instr) : Prop :=
  inp.rst = false ∧ inp.cmdValid = true ∧ decodeWord inp.cmdWord = .command c

/-- The next cycle is no reset and presents an illegal word. -/
def presentsIllegal (inp : Inputs) : Prop :=
  inp.rst = false ∧ inp.cmdValid = true ∧ ∃ why, decodeWord inp.cmdWord = .illegal why

/-- The commands one after another, each on the state the one before leaves (R61). -/
def execAll : List Instr → State → Host.Outcome State Fault Refusal
  | [], s => .next s
  | i :: is, s =>
    match exec i s with
    | .next t => execAll is t
    | .fault f => .fault f
    | .refused r => .refused r

/-- The elements of the CRC unit (R22, column sub-unit). -/
structure CrcUnit where
  crc : Byte
  cnt : BitVec 4
  fam : Byte
  ovf : Bool
deriving DecidableEq, Repr

/-- The elements of the wait FSM (R22, column sub-unit). -/
structure WaitUnit where
  tmo : Byte
  elap : Byte
  fst : Fst
  res : Res
  stat : Byte
deriving DecidableEq, Repr

def State.crcUnit (s : State) : CrcUnit := ⟨s.crc, s.cnt, s.fam, s.ovf⟩

def State.waitUnit (s : State) : WaitUnit := ⟨s.tmo, s.elap, s.fst, s.res, s.stat⟩

/-- The bytes fed since the last CRC.CLR or reset, after one more cycle (R29). -/
def fedAfter (bs : List Byte) (inp : Inputs) : List Byte :=
  if inp.rst then []
  else if inp.cmdValid then
    match decodeWord inp.cmdWord with
    | .command .crcClr => []
    | .command (.crcByte d) => bs ++ [d]
    | .command .nop => bs
    | .command (.waitReady _) => bs
    | .command (.setTmo _) => bs
    | .command .clrErr => bs
    | .illegal _ => bs
  else bs

/-- The remainder of a message from the initial remainder `c` (R120, R125). -/
def remainder (P : Params) (c : Byte) (bs : List Byte) : Byte := bs.foldl (crcNext P) c

/-- The CRC unit as R29 describes it by the bytes fed: the remainder of the first `P_ID_BYTES` of them, their number up
to `P_ID_BYTES`, the first of them or 0x00, and whether there were more. -/
def unitOf (P : Params) (bs : List Byte) : CrcUnit :=
  ⟨remainder P P.crcInit (bs.take P.idBytes), BitVec.ofNat 4 (min bs.length P.idBytes), bs.headD 0,
    decide (P.idBytes < bs.length)⟩

/-- The commands that check an identifier: CRC.CLR and a CRC.BYTE for each byte (R81 `CRC.CHECK8`). -/
def checkCommands (bs : List Byte) : List Instr := .crcClr :: bs.map .crcByte

/-- The identifier with bit `k` flipped, bit `k` being bit `k mod 8` of byte `k div 8` (R52, R53, V-SRC-2). -/
def flipBit (k : Nat) (bs : List Byte) : List Byte := bs.modify (k / 8) (fun b => b ^^^ (1#8 <<< (k % 8)))

/-- The FSM transitions R150, R152 and R166 to R171 allow in a cycle without reset, staying put included. -/
def fstMayFollow : Fst → Fst → Bool
  | .idle, .idle => true
  | .idle, .spReq => true
  | .idle, .rdReq => true
  | .spReq, .spReq => true
  | .spReq, .spWait => true
  | .spReq, .drain => true
  | .spReq, .idle => true
  | .spWait, .spWait => true
  | .spWait, .rdReq => true
  | .spWait, .drain => true
  | .spWait, .idle => true
  | .rdReq, .rdReq => true
  | .rdReq, .rdWait => true
  | .rdReq, .drain => true
  | .rdReq, .idle => true
  | .rdWait, .rdWait => true
  | .rdWait, .rdReq => true
  | .rdWait, .drain => true
  | .rdWait, .idle => true
  | .drain, .drain => true
  | .drain, .idle => true
  | _, _ => false

end Sys2Proof.Machine
end

