-- ==== Sys2Proof/Certificates/Slice0/Obligations.lean ====
section
/-! DEFINITION. The statements for the provers. Each docstring names the rule of spec/ it formalises. The parameters are
those R7 decides (`Config.params`); a statement that holds for any parameters says so. -/

open Sys2Proof Sys2Proof.Machine

/-! ## Encoding -/

/-- Words written out bit by bit from the fields of R70 and R72, and the words of 95_test_vectors.md 2.1. -/
def Obligations.WrittenOutWordsDecode : Prop :=
  decodeWord 0b0000000000000000#16 = .command .nop ∧
  decodeWord 0b0001000000000000#16 = .command .crcClr ∧
  decodeWord 0b0010000000101000#16 = .command (.crcByte 0x28) ∧
  decodeWord 0b0011000000000000#16 = .command (.waitReady false) ∧
  decodeWord 0b0011000100000000#16 = .command (.waitReady true) ∧
  decodeWord 0b0100000000010100#16 = .command (.setTmo 20) ∧
  decodeWord 0b0101000000000000#16 = .command .clrErr ∧
  (∀ w ∈ [0x0001#16, 0x0100#16, 0x0200#16, 0x1001#16, 0x1100#16, 0x21FF#16, 0x2E28#16, 0x3001#16, 0x3101#16,
      0x3E00#16, 0x4114#16, 0x5080#16, 0x6000#16, 0x7FFF#16, 0xF000#16, 0xFFFF#16],
    ∀ i, decodeWord w ≠ .command i)

/-- Decoding and encoding agree in both directions, on every word and every command with every operand (R72, R73). -/
def Obligations.DecodeExactlyInvertsEncode : Prop :=
  ∀ (w : Word) (i : Instr), decodeWord w = .command i ↔ w = encode i

/-- R72: the mask and match of each command with the operands its word carries, the rows match disjoint words, and there
are 517 legal words. -/
def Obligations.OpcodeMapByMaskAndMatch : Prop :=
  (∀ w : Word,
    (decodeWord w = .command .nop ↔ w &&& 0xFFFF = 0x0000) ∧
    (decodeWord w = .command .crcClr ↔ w &&& 0xFFFF = 0x1000) ∧
    (∀ d : Byte, decodeWord w = .command (.crcByte d) ↔ w &&& 0xFF00 = 0x2000 ∧ d = w.extractLsb' 0 8) ∧
    (∀ sp : Bool, decodeWord w = .command (.waitReady sp) ↔ w &&& 0xFEFF = 0x3000 ∧ sp = w.getLsbD 8) ∧
    (∀ d : Byte, decodeWord w = .command (.setTmo d) ↔ w &&& 0xFF00 = 0x4000 ∧ d = w.extractLsb' 0 8) ∧
    (decodeWord w = .command .clrErr ↔ w &&& 0xFFFF = 0x5000)) ∧
  ([((0xFFFF : Word), (0x0000 : Word)), (0xFFFF, 0x1000), (0xFF00, 0x2000), (0xFEFF, 0x3000), (0xFF00, 0x4000),
      (0xFFFF, 0x5000)].Pairwise fun a b => ∀ w : Word, ¬(w &&& a.1 = a.2 ∧ w &&& b.1 = b.2)) ∧
  ∃ legal : List Word, legal.Nodup ∧ legal.length = 517 ∧
    ∀ w, w ∈ legal ↔ ∃ i, decodeWord w = .command i

/-- R74: which words are illegal, what consuming one does, and NOP is the only no-op word of its opcode. -/
def Obligations.IllegalWordsByCause : Prop :=
  (∀ w : Word, (∃ why, decodeWord w = .illegal why) ↔
    (6 ≤ (w.extractLsb' 12 4).toNat ∨ w.extractLsb' 9 3 ≠ 0 ∨
      (w.getLsbD 8 = true ∧ (w.extractLsb' 12 4).toNat ≠ 3) ∨
      (w.extractLsb' 0 8 ≠ 0 ∧ (w.extractLsb' 12 4).toNat ≠ 2 ∧ (w.extractLsb' 12 4).toNat ≠ 4))) ∧
  (∀ (s : State) (inp : Inputs), presentsIllegal inp → consume inp s = .next { s with ill := true }) ∧
  (∀ w : Word, decodeWord w = .command .nop ↔ w = 0)

/-! ## The cycle -/

/-- R100, R101: a cycle that presents a legal command runs its meaning on the start-of-cycle state, and adds the wait
FSM's writes computed from that same state, the outputs, and the passing of the cycle. -/
def Obligations.StepRunsTheDecodedCommand : Prop :=
  ∀ (s : State) (i : Instr), presents s.nextInputs i → inLegalRange Config.params s = true →
    ∃ t, exec i s = .next t ∧
      step s = .next ((t.applyFsm (fsmStep Config.params s s.nextInputs).1).endCycle
        (outputs Config.params s s.nextInputs))

/-- The word placed by `withFetchWord` is the next command consumed, and the rest of the state is as it was (log 12). -/
def Obligations.FetchWordIsPresentedNext : Prop :=
  ∀ (s : State) (nbits w : Nat) (i : Instr), decodeTableWord nbits w = some i →
    presents (s.withFetchWord nbits w).nextInputs i ∧
    (s.withFetchWord nbits w).inputs.tail = s.inputs ∧
    { s.withFetchWord nbits w with inputs := s.inputs } = s

/-- R110: without a command the word is ignored, nothing is written by a command, and the wait FSM still steps. -/
def Obligations.CycleWithoutCommand : Prop :=
  ∀ (s : State) (inp : Inputs), inp.rst = false → inp.cmdValid = false → inLegalRange Config.params s = true →
    step (s.present inp) = .next
      (((s.present inp).applyFsm (fsmStep Config.params s inp).1).endCycle (outputs Config.params s inp)) ∧
    ∀ w : Word, step (s.present { inp with cmdWord := w }) = step (s.present inp)

/-- Every command completes in every state, and touches neither STAT nor the model's own fields (R101: no command waits
or stalls; R105: no command writes STAT). -/
def Obligations.EveryCommandCompletes : Prop :=
  ∀ (i : Instr) (s : State), ∃ t, exec i s = .next t ∧
    t.stat = s.stat ∧ t.inputs = s.inputs ∧ t.cycle = s.cycle ∧ t.out = s.out

/-- The one stop of the machine is the model's choice of log 4 for U1, U2 and R232: a cycle without reset from a state no
reset has made legal. With reset, or in the legal range, a cycle always completes (R200, R230). -/
def Obligations.StepStopsOnlyWithoutReset : Prop :=
  ∀ s : State,
    ((s.nextInputs.rst = true ∨ (s.cnt.toNat ≤ 8 ∧ s.tmo ≠ 0)) → ∃ t, step s = .next t) ∧
    (s.nextInputs.rst = false → ¬(s.cnt.toNat ≤ 8 ∧ s.tmo ≠ 0) → step s = .refused .noResetApplied)

/-- R103: an illegal word sets ILL; all else is as in the same cycle without a command. With the rule's example. -/
def Obligations.IllegalWordSetsIllOnly : Prop :=
  (∀ (s : State) (inp : Inputs), presentsIllegal inp → inLegalRange Config.params s = true →
    ∃ t, step (s.present { inp with cmdValid := false }) = .next t ∧
      step (s.present inp) = .next { t with ill := true }) ∧
  ∃ t, step (State.reset.present (Inputs.command 0x6000)) = .next t ∧ reg Config.params t 4#3 = 0x40

/-- R104: WAIT.READY or SET.TMO outside IDLE sets REJ; all else is as in the same cycle without a command, so the wait
goes on, and the command is lost. -/
def Obligations.RejectedCommandSetsRejOnly : Prop :=
  ∀ (s : State) (inp : Inputs) (c : Instr), presents inp c →
    ((∃ sp, c = .waitReady sp) ∨ ∃ d, c = .setTmo d) → s.fst ≠ .idle → inLegalRange Config.params s = true →
    exec c s = .next { s with rej := true } ∧
    ∃ t, step (s.present { inp with cmdValid := false }) = .next t ∧
      step (s.present inp) = .next { t with rej := true } ∧
      t.tmo = s.tmo

/-- R102: which commands a state rejects. -/
def Obligations.RejectedExactlyOutsideIdle : Prop :=
  ∀ (i : Instr) (s : State), s.rej = false →
    ∃ t, exec i s = .next t ∧
      (t.rej = true ↔ (((∃ sp, i = .waitReady sp) ∨ ∃ d, i = .setTmo d) ∧ s.fst ≠ .idle))

/-! ## NOP, CLR.ERR -/

/-- R106: NOP writes nothing and is the same as a cycle with `cmd_valid` = 0. -/
def Obligations.NopIsACycleWithoutCommand : Prop :=
  (∀ s : State, exec .nop s = .next s) ∧
  ∀ (s : State) (inp : Inputs),
    step (s.present { inp with cmdValid := true, cmdWord := 0x0000 }) =
      step (s.present { inp with cmdValid := false })

/-- R108: CLR.ERR clears REJ and ILL, touches nothing else, disturbs no wait, and is never rejected. With the rule's
example. -/
def Obligations.ClrErrClearsRejAndIll : Prop :=
  (∀ s : State, exec .clrErr s = .next { s with rej := false, ill := false }) ∧
  (∀ (s : State) (inp : Inputs), presents inp .clrErr → inLegalRange Config.params s = true →
    ∃ t, step (s.present { inp with cmdValid := false }) = .next t ∧
      step (s.present inp) = .next { t with rej := false, ill := false }) ∧
  ∀ s : State, reg Config.params s 4#3 = 0x60 →
    ∃ t, exec .clrErr s = .next t ∧ reg Config.params t 4#3 = 0x00

/-! ## The CRC unit -/

/-- R124: CRC.CLR, in any FSM state, with what the registers read afterwards. -/
def Obligations.CrcClrClearsTheUnit : Prop :=
  ∀ s : State, ∃ t, exec .crcClr s = .next t ∧
    t = { s with crc := 0x00, cnt := 0, fam := 0x00, ovf := false } ∧
    (reg Config.params t 1#3).getLsbD 5 = true ∧ (reg Config.params t 1#3).getLsbD 4 = false ∧
    (reg Config.params t 1#3).getLsbD 6 = false ∧ reg Config.params t 1#3 = 0x20 ∧ reg Config.params t 3#3 = 0x00

/-- R125: CRC.BYTE on a unit that is not full and on a full one, with the rule's corner cases and example. -/
def Obligations.CrcByteFeedsOrOverruns : Prop :=
  (∀ (d : Byte) (s : State), s.cnt.toNat < 8 →
    exec (.crcByte d) s = .next { s with
      crc := t8 Config.params (s.crc ^^^ d), cnt := s.cnt + 1, fam := if s.cnt = 0 then d else s.fam }) ∧
  (∀ (d : Byte) (s : State), s.cnt = 8 → exec (.crcByte d) s = .next { s with ovf := true }) ∧
  (∀ s : State, s.crc = 0 → s.cnt.toNat < 8 → ∃ t, exec (.crcByte 0) s = .next t ∧ t.crc = 0) ∧
  (∀ s : State, s.cnt = 0 →
    ∃ t, exec (.crcByte 0) s = .next t ∧ t.fam = 0 ∧ (reg Config.params t 1#3).getLsbD 6 = true) ∧
  (∀ (d : Byte) (s : State), s.cnt = 7 →
    ∃ t, exec (.crcByte d) s = .next t ∧ (reg Config.params t 1#3).getLsbD 4 = true ∧
      verdict Config.params t ≠ .incomplete) ∧
  ∀ s : State, s.crcUnit = ⟨0, 0, 0, false⟩ →
    ∃ t, exec (.crcByte 0x28) s = .next t ∧
      reg Config.params t 0#3 = 0xE1 ∧ reg Config.params t 1#3 = 0x01 ∧ reg Config.params t 2#3 = 0x28

/-- R121: the byte-parallel function equals the eight serial bit steps of R120, for any polynomial; it fixes 0x00; and it
is a bijection on bytes. -/
def Obligations.ByteStepEqualsEightBitSteps : Prop :=
  (∀ (P : Params) (c d : Byte), t8 P (c ^^^ d) = crcSerial P c d) ∧
  Function.Bijective (t8 Config.params) ∧
  ∀ P : Params, t8 P 0x00 = 0x00

/-- R122: T8 by its XOR equations, the images of the single bits, and linearity. -/
def Obligations.ByteStepByXorEquations : Prop :=
  (∀ x : Byte, t8 Config.params x = t8Equations x) ∧
  [0x01, 0x02, 0x04, 0x08, 0x10, 0x20, 0x40, 0x80].map (t8 Config.params) =
    [0x5E, 0xBC, 0x61, 0xC2, 0x9D, 0x23, 0x46, 0x8C] ∧
  ∀ (P : Params) (a b : Byte), t8 P (a ^^^ b) = t8 P a ^^^ t8 P b

/-- R123: the table, R121 and R122 agree on all 256 inputs. -/
def Obligations.ByteStepByTable : Prop :=
  ∀ x : Byte, t8Table x = t8 Config.params x ∧ t8Table x = t8Equations x

/-- R29: through any run, with any waits, ticks, responses, illegal words and resets among the cycles, the CRC unit holds
what the bytes fed since the last CRC.CLR or reset give: the running remainder (of the first eight, R127), their number
up to eight, the first of them or 0x00, and whether there were more than eight. -/
def Obligations.CrcUnitHoldsTheBytesFed : Prop :=
  ∀ (n : Nat) (s : State), s.Inv → s.crcUnit = ⟨0x00, 0, 0x00, false⟩ →
    ∃ t, runSteps n s = .next t ∧
      t.crcUnit = unitOf Config.params ((upcoming n s).foldl fedAfter [])

/-- R128: after CRC.CLR and seven bytes the remainder is the check byte; the identifier with it has remainder 0, and is
VALID exactly when its first byte is not 0x00. -/
def Obligations.SevenBytesGiveTheCheckByte : Prop :=
  ∀ (bs : List Byte) (s : State), bs.length = 7 →
    ∃ t, execAll (checkCommands bs) s = .next t ∧
      ∃ u, execAll (checkCommands (bs ++ [reg Config.params t 0#3])) s = .next u ∧
        u.crc = 0x00 ∧ (verdict Config.params u = .valid ↔ bs.headD 0 ≠ 0x00)

/-- R129: an identifier of remainder 0 with any one of its 64 bits flipped has a nonzero remainder, and its verdict is
CRC_MISMATCH, or ROM_INVALID when the flip makes byte 0 equal 0x00. -/
def Obligations.SingleBitErrorsAreDetected : Prop :=
  ∀ (bs : List Byte) (k : Nat) (s t : State), bs.length = 8 → k < 64 →
    execAll (checkCommands bs) s = .next t → t.crc = 0x00 →
    ∃ u, execAll (checkCommands (flipBit k bs)) s = .next u ∧ u.crc ≠ 0x00 ∧
      verdict Config.params u = if (flipBit k bs).headD 0 = 0x00 then .romInvalid else .crcMismatch

/-- R131: a message followed by its own check byte has remainder 0 for any initial value; the check byte depends on the
initial value; and the initial value here is 0x00. -/
def Obligations.ZeroRemainderForAnyInitialValue : Prop :=
  (∀ (P : Params) (c : Byte) (bs : List Byte), remainder P c (bs ++ [remainder P c bs]) = 0x00) ∧
  (∀ (bs : List Byte) (c c' : Byte), c ≠ c' → remainder Config.params c bs ≠ remainder Config.params c' bs) ∧
  Config.params.crcInit = 0x00

/-- R42, R43: the verdict as the register CRCRES reads it; FAMZ and ZERO show both facts when both errors apply; a ninth
byte leaves the verdict and shows in OVF. -/
def Obligations.VerdictRegister : Prop :=
  ∀ s : State,
    (reg Config.params s 3#3).extractLsb' 2 6 = 0 ∧
    (s.cnt.toNat < 8 → reg Config.params s 3#3 = 0) ∧
    (8 ≤ s.cnt.toNat → s.fam = 0x00 → reg Config.params s 3#3 = 2) ∧
    (8 ≤ s.cnt.toNat → s.fam ≠ 0x00 → s.crc ≠ 0x00 → reg Config.params s 3#3 = 3) ∧
    (8 ≤ s.cnt.toNat → s.fam ≠ 0x00 → s.crc = 0x00 → reg Config.params s 3#3 = 1) ∧
    (8 ≤ s.cnt.toNat → s.fam = 0x00 → s.crc ≠ 0x00 →
      (reg Config.params s 1#3).getLsbD 6 = true ∧ (reg Config.params s 1#3).getLsbD 5 = false) ∧
    (∀ b : Bool, reg Config.params { s with ovf := b } 3#3 = reg Config.params s 3#3) ∧
    (∀ d : Byte, s.cnt = 8 → ∃ t, exec (.crcByte d) s = .next t ∧
      reg Config.params t 3#3 = reg Config.params s 3#3 ∧ (reg Config.params t 1#3).getLsbD 7 = true) ∧
    reg Config.params State.reset 3#3 = 0

/-! ## WAIT.READY, SET.TMO -/

/-- R152: WAIT.READY outside IDLE and in IDLE; the acceptance cycle counts no tick, keeps STAT and REJ, and drives
`done` = 0. With the rule's example. -/
def Obligations.WaitReadyStartsOrIsRejected : Prop :=
  (∀ (sp : Bool) (s : State), s.fst ≠ .idle → exec (.waitReady sp) s = .next { s with rej := true }) ∧
  (∀ (sp : Bool) (s : State), s.fst = .idle →
    exec (.waitReady sp) s = .next { s with elap := 0, res := .none, fst := if sp then .spReq else .rdReq }) ∧
  (∀ (sp : Bool) (s : State), presents s.nextInputs (.waitReady sp) → s.fst = .idle →
    inLegalRange Config.params s = true →
    ∃ t, step s = .next t ∧
      t.waitUnit = ⟨s.tmo, 0, if sp then .spReq else .rdReq, .none, s.stat⟩ ∧ t.rej = s.rej ∧ t.out.done = false) ∧
  ∃ t, step (State.reset.present (Inputs.command 0x3100)) = .next t ∧
    reg Config.params t 4#3 = 0x01 ∧ reg Config.params t 7#3 = 0

/-- R154: SET.TMO outside IDLE and in IDLE, 0 being stored as 1, ELAP untouched; the new value governs the next wait, so
that its first tick hits the deadline exactly when `d` is 0 or 1. With the rule's examples. -/
def Obligations.SetTmoStoresALegalDeadline : Prop :=
  (∀ (d : Byte) (s : State), s.fst ≠ .idle → exec (.setTmo d) s = .next { s with rej := true }) ∧
  (∀ (d : Byte) (s : State), s.fst = .idle →
    exec (.setTmo d) s = .next { s with tmo := if d = 0 then 1 else d }) ∧
  ∀ s : State, s.fst = .idle →
    (∃ t, exec (.setTmo 0) s = .next t ∧ reg Config.params t 6#3 = 0x01) ∧
    (∃ t, exec (.setTmo 0x30) s = .next t ∧ reg Config.params t 6#3 = 0x30) ∧
    (∃ t, exec (.setTmo 255) s = .next t ∧ reg Config.params t 6#3 = 255) ∧
    ∀ (d : Byte) (sp : Bool), ∃ t, execAll [.setTmo d, .waitReady sp] s = .next t ∧
      ∀ inp : Inputs, deadlineHit t inp = true ↔ inp.tick = true ∧ d.toNat ≤ 1

/-- The frame of each sub-unit's commands: a CRC command leaves the wait FSM's elements, REJ and ILL as they were; a wait
command leaves the CRC unit's elements and ILL; NOP and CLR.ERR leave both units (R63, R105). -/
def Obligations.CommandsKeepTheOtherUnit : Prop :=
  (∀ (d : Byte) (s : State), ∀ i ∈ [Instr.crcClr, .crcByte d], ∃ t, exec i s = .next t ∧
    t.waitUnit = s.waitUnit ∧ t.rej = s.rej ∧ t.ill = s.ill) ∧
  (∀ (sp : Bool) (d : Byte) (s : State), ∀ i ∈ [Instr.waitReady sp, .setTmo d], ∃ t, exec i s = .next t ∧
    t.crcUnit = s.crcUnit ∧ t.ill = s.ill) ∧
  ∀ s : State, ∀ i ∈ [Instr.nop, .clrErr], ∃ t, exec i s = .next t ∧
    t.crcUnit = s.crcUnit ∧ t.waitUnit = s.waitUnit

/-! ## The wait FSM, one cycle. Each holds whatever command the cycle presents. -/

/-- R165: ELAP counts a tick exactly in an active wait, and the deadline is hit exactly by the tick that brings it to
TMO. -/
def Obligations.TicksCountInActiveWaitsOnly : Prop :=
  ∀ s : State, s.nextInputs.rst = false → inLegalRange Config.params s = true →
    (deadlineHit s s.nextInputs = true ↔
      (s.fst.isActive = true ∧ s.nextInputs.tick = true ∧ s.tmo.toNat ≤ s.elap.toNat + 1)) ∧
    (s.fst.isActive = true → ∃ t, step s = .next t ∧
      t.elap = (if s.nextInputs.tick then s.elap + 1 else s.elap)) ∧
    (s.fst.isActive = false → (∀ sp, ¬ presents s.nextInputs (.waitReady sp)) →
      ∃ t, step s = .next t ∧ t.elap = s.elap)

/-- R167: SP_REQ and RD_REQ, each with its wait state, by deadline hit and request handshake. -/
def Obligations.RequestStatesByHandshakeAndDeadline : Prop :=
  ∀ (s : State) (w : Fst), (s.fst = .spReq ∧ w = .spWait ∨ s.fst = .rdReq ∧ w = .rdWait) →
    s.nextInputs.rst = false → inLegalRange Config.params s = true →
    ∃ t, step s = .next t ∧ t.tmo = s.tmo ∧ t.stat = s.stat ∧
      (deadlineHit s s.nextInputs = false → s.nextInputs.xreqReady = true →
        t.fst = w ∧ t.res = s.res ∧ t.out.done = false) ∧
      (deadlineHit s s.nextInputs = false → s.nextInputs.xreqReady = false →
        t.fst = s.fst ∧ t.res = s.res ∧ t.out.done = false) ∧
      (deadlineHit s s.nextInputs = true → s.nextInputs.xreqReady = true →
        t.fst = .drain ∧ t.res = .timeout ∧ t.out.done = true) ∧
      (deadlineHit s s.nextInputs = true → s.nextInputs.xreqReady = false →
        t.fst = .idle ∧ t.res = .timeout ∧ t.out.done = true)

/-- R168: SP_WAIT, by response and deadline hit. The response's data byte is ignored (R160). -/
def Obligations.SetPointerWaitByResponseAndDeadline : Prop :=
  ∀ s : State, s.fst = .spWait → s.nextInputs.rst = false → inLegalRange Config.params s = true →
    ∃ t, step s = .next t ∧ t.tmo = s.tmo ∧ t.stat = s.stat ∧
      (s.nextInputs.xrspValid = true → s.nextInputs.xrspErr = true →
        t.fst = .idle ∧ t.res = .xerr ∧ t.out.done = true) ∧
      (s.nextInputs.xrspValid = true → s.nextInputs.xrspErr = false → deadlineHit s s.nextInputs = false →
        t.fst = .rdReq ∧ t.res = s.res ∧ t.out.done = false) ∧
      (s.nextInputs.xrspValid = true → s.nextInputs.xrspErr = false → deadlineHit s s.nextInputs = true →
        t.fst = .idle ∧ t.res = .timeout ∧ t.out.done = true) ∧
      (s.nextInputs.xrspValid = false → deadlineHit s s.nextInputs = true →
        t.fst = .drain ∧ t.res = .timeout ∧ t.out.done = true) ∧
      (s.nextInputs.xrspValid = false → deadlineHit s s.nextInputs = false →
        t.fst = .spWait ∧ t.res = s.res ∧ t.out.done = false)

/-- R169, R170: RD_WAIT, by response, busy bit (bit 0 of the byte) and deadline hit. -/
def Obligations.PollWaitByResponseBusyAndDeadline : Prop :=
  ∀ s : State, s.fst = .rdWait → s.nextInputs.rst = false → inLegalRange Config.params s = true →
    ∃ t, step s = .next t ∧ t.tmo = s.tmo ∧
      (s.nextInputs.xrspValid = true → s.nextInputs.xrspErr = true →
        t.fst = .idle ∧ t.res = .xerr ∧ t.stat = s.stat ∧ t.out.done = true) ∧
      (s.nextInputs.xrspValid = true → s.nextInputs.xrspErr = false →
        t.stat = s.nextInputs.xrspData ∧
        (s.nextInputs.xrspData.getLsbD 0 = false → t.fst = .idle ∧ t.res = .ready ∧ t.out.done = true) ∧
        (s.nextInputs.xrspData.getLsbD 0 = true → deadlineHit s s.nextInputs = false →
          t.fst = .rdReq ∧ t.res = s.res ∧ t.out.done = false) ∧
        (s.nextInputs.xrspData.getLsbD 0 = true → deadlineHit s s.nextInputs = true →
          t.fst = .idle ∧ t.res = .timeout ∧ t.out.done = true)) ∧
      (s.nextInputs.xrspValid = false → deadlineHit s s.nextInputs = true →
        t.fst = .drain ∧ t.res = .timeout ∧ t.stat = s.stat ∧ t.out.done = true) ∧
      (s.nextInputs.xrspValid = false → deadlineHit s s.nextInputs = false →
        t.fst = .rdWait ∧ t.res = s.res ∧ t.stat = s.stat ∧ t.out.done = false)

/-- R171: DRAIN waits for the response and discards it; RES, STAT and ELAP stay; WAIT.READY and SET.TMO are rejected. -/
def Obligations.DrainDiscardsTheResponse : Prop :=
  ∀ s : State, s.Inv → s.fst = .drain → s.nextInputs.rst = false →
    ∃ t, step s = .next t ∧
      t.fst = (if s.nextInputs.xrspValid then .idle else .drain) ∧
      t.res = .timeout ∧ s.res = .timeout ∧ t.stat = s.stat ∧ t.elap = s.elap ∧ t.tmo = s.tmo ∧
      t.out.done = false ∧
      ∀ c, presents s.nextInputs c → ((∃ sp, c = .waitReady sp) ∨ ∃ d, c = .setTmo d) → t.rej = true

/-- R173: in IDLE the FSM writes nothing, whatever ticks, `xreq_ready` and responses do; `xreq_valid` is 0; ELAP, RES and
STAT keep their values unless a WAIT.READY is accepted. -/
def Obligations.IdleFsmWritesNothing : Prop :=
  ∀ s : State, s.fst = .idle →
    (∀ inp : Inputs, fsmStep Config.params s inp = (⟨none, none, none, none⟩, false) ∧
      (outputs Config.params s inp).xreqValid = false) ∧
    (s.nextInputs.rst = false → (∀ sp, ¬ presents s.nextInputs (.waitReady sp)) →
      inLegalRange Config.params s = true →
      ∃ t, step s = .next t ∧ t.fst = .idle ∧ t.elap = s.elap ∧ t.res = s.res ∧ t.stat = s.stat)

/-- R163: with no transaction outstanding, the response inputs change nothing at all. -/
def Obligations.StrayResponsesAreIgnored : Prop :=
  ∀ (s : State) (inp : Inputs) (v e : Bool) (d : Byte), s.fst ≠ .spWait → s.fst ≠ .rdWait → s.fst ≠ .drain →
    step (s.present { inp with xrspValid := v, xrspErr := e, xrspData := d }) = step (s.present inp)

/-- R172: `done` is 1 exactly in the cycles in which the FSM writes RES with READY, TIMEOUT or XERR, which are exactly
the cycles without reset in which an active wait ends; the result stands in WST from the next cycle. -/
def Obligations.DoneExactlyWhenTheWaitEnds : Prop :=
  ∀ s t : State, step s = .next t →
    (t.out.done = true ↔ (s.nextInputs.rst = false ∧
      ∃ r, (fsmStep Config.params s s.nextInputs).1.res = some r ∧ r ≠ .none ∧ t.res = r)) ∧
    (t.out.done = true ↔ (s.nextInputs.rst = false ∧ s.fst.isActive = true ∧ t.fst.isActive = false)) ∧
    (t.out.done = true → (reg Config.params t 4#3).extractLsb' 3 2 ≠ 0)

/-- Which cause each result has: READY a status byte not busy, kept in STAT (R170); XERR an error response to the
outstanding transaction (R204); TIMEOUT the deadline, with ELAP left equal to TMO (R203). -/
def Obligations.EachResultHasItsCause : Prop :=
  ∀ s t : State, s.Inv → step s = .next t → t.out.done = true →
    (t.res = .ready → s.fst = .rdWait ∧ s.nextInputs.xrspValid = true ∧ s.nextInputs.xrspErr = false ∧
      t.stat = s.nextInputs.xrspData ∧ t.stat.getLsbD 0 = false) ∧
    (t.res = .xerr → (s.fst = .spWait ∨ s.fst = .rdWait) ∧ s.nextInputs.xrspValid = true ∧
      s.nextInputs.xrspErr = true ∧ t.stat = s.stat) ∧
    (t.res = .timeout → deadlineHit s s.nextInputs = true ∧ t.elap = t.tmo)

/-! ## Reads and outputs -/

/-- R109: every register of the read view, field by field; the read shows the start-of-cycle state, and the read address
changes nothing but the byte read. -/
def Obligations.RegisterReadView : Prop :=
  (∀ s : State,
    reg Config.params s 0#3 = s.crc ∧
    (reg Config.params s 1#3).extractLsb' 0 4 = s.cnt ∧
    ((reg Config.params s 1#3).getLsbD 4 = true ↔ s.cnt = 8) ∧
    ((reg Config.params s 1#3).getLsbD 5 = true ↔ s.crc = 0x00) ∧
    ((reg Config.params s 1#3).getLsbD 6 = true ↔ 1 ≤ s.cnt.toNat ∧ s.fam = 0x00) ∧
    (reg Config.params s 1#3).getLsbD 7 = s.ovf ∧
    reg Config.params s 2#3 = s.fam ∧
    reg Config.params s 3#3 = (verdict Config.params s).code.zeroExtend 8 ∧
    (reg Config.params s 4#3).extractLsb' 0 3 = s.fst.code ∧
    (reg Config.params s 4#3).extractLsb' 3 2 = s.res.code ∧
    (reg Config.params s 4#3).getLsbD 5 = s.rej ∧
    (reg Config.params s 4#3).getLsbD 6 = s.ill ∧
    ((reg Config.params s 4#3).getLsbD 7 = true ↔ s.fst = .spWait ∨ s.fst = .rdWait ∨ s.fst = .drain) ∧
    reg Config.params s 5#3 = s.stat ∧ reg Config.params s 6#3 = s.tmo ∧ reg Config.params s 7#3 = s.elap) ∧
  (∀ s t : State, step s = .next t → t.out.rdData = reg Config.params s s.nextInputs.rdAddr) ∧
  ∀ (s t : State) (inp : Inputs) (a : BitVec 3), step (s.present inp) = .next t →
    step (s.present { inp with rdAddr := a }) =
      .next { t with out := { t.out with rdData := reg Config.params s a } }

/-- R25: the output ports of every cycle that completes. -/
def Obligations.OutputPorts : Prop :=
  ∀ s t : State, step s = .next t →
    t.out.rdData = reg Config.params s s.nextInputs.rdAddr ∧
    (t.out.xreqValid = true ↔ s.nextInputs.rst = false ∧ (s.fst = .spReq ∨ s.fst = .rdReq)) ∧
    (t.out.xreqKind = true ↔ s.fst = .rdReq) ∧
    t.out.xreqCode = (if s.fst = .spReq then 0xE1 else 0x00) ∧
    t.out.xreqParam = (if s.fst = .spReq then 0xF0 else 0x00) ∧
    (t.out.done = true ↔ s.nextInputs.rst = false ∧
      ∃ r, (fsmStep Config.params s s.nextInputs).1.res = some r ∧ r ≠ .none)

/-- The error records of R208 in terms of the elements, in the states R22 calls legal. -/
def Obligations.ErrorRecords : Prop :=
  ∀ s : State, s.cnt.toNat ≤ 8 →
    (recorded Config.params s .illegal = true ↔ s.ill = true) ∧
    (recorded Config.params s .rejected = true ↔ s.rej = true) ∧
    (recorded Config.params s .timeout = true ↔ s.res = .timeout) ∧
    (recorded Config.params s .xerr = true ↔ s.res = .xerr) ∧
    (recorded Config.params s .romInvalid = true ↔ s.cnt = 8 ∧ s.fam = 0x00) ∧
    (recorded Config.params s .crcMismatch = true ↔ s.cnt = 8 ∧ s.fam ≠ 0x00 ∧ s.crc ≠ 0x00) ∧
    (recorded Config.params s .overrun = true ↔ s.ovf = true)

/-! ## Reset -/

/-- R230: a cycle with `rst` loads the reset state from any state, ignores every other input but the read address, and
drives `xreq_valid` = 0, `done` = 0 and the byte read from the start-of-cycle state. -/
def Obligations.ResetLoadsTheResetState : Prop :=
  ∀ s : State, s.nextInputs.rst = true →
    step s = .next
      { crc := 0x00, cnt := 0, fam := 0x00, ovf := false, tmo := 0x14, elap := 0, fst := .idle, res := .none,
        stat := 0x00, rej := false, ill := false, inputs := s.inputs.tail, cycle := s.cycle + 1,
        out := { rdData := reg Config.params s s.nextInputs.rdAddr, xreqValid := false,
                 xreqKind := s.fst == .rdReq, xreqCode := if s.fst = .spReq then 0xE1 else 0x00,
                 xreqParam := if s.fst = .spReq then 0xF0 else 0x00, done := false } } ∧
    ∀ t, step s = .next t → view Config.params t = [0x00, 0x20, 0x00, 0x00, 0x00, 0x00, 0x14, 0x00]

/-- The state the model starts from has the reset values of R230 and R40 in every element and register. -/
def Obligations.ModelStartsAtResetState : Prop :=
  State.reset.crcUnit = ⟨0x00, 0, 0x00, false⟩ ∧
  State.reset.waitUnit = ⟨20, 0, .idle, .none, 0x00⟩ ∧
  State.reset.rej = false ∧ State.reset.ill = false ∧
  view Config.params State.reset = [0x00, 0x20, 0x00, 0x00, 0x00, 0x00, 0x14, 0x00]

/-! ## The whole machine -/

/-- R28: REJ and ILL in the next state, from the present state and the command; nothing else sets or clears them. -/
def Obligations.StickyFlagsSetAndCleared : Prop :=
  ∀ s t : State, step s = .next t →
    (t.rej = true ↔ (s.nextInputs.rst = false ∧ ¬ presents s.nextInputs .clrErr ∧
      (s.rej = true ∨ (s.fst ≠ .idle ∧
        ∃ c, presents s.nextInputs c ∧ ((∃ sp, c = .waitReady sp) ∨ ∃ d, c = .setTmo d))))) ∧
    (t.ill = true ↔ (s.nextInputs.rst = false ∧ ¬ presents s.nextInputs .clrErr ∧
      (s.ill = true ∨ presentsIllegal s.nextInputs)))

/-- R31: TMO is never 0 once legal, and changes only by reset or by a SET.TMO in IDLE, so not during a wait. -/
def Obligations.TmoChangesOnlyInIdle : Prop :=
  ∀ s t : State, step s = .next t →
    (s.tmo ≠ 0 → t.tmo ≠ 0) ∧
    (t.tmo ≠ s.tmo → s.nextInputs.rst = true ∨
      (s.fst = .idle ∧ ∃ d, presents s.nextInputs (.setTmo d) ∧ t.tmo = if d = 0 then 1 else d))

/-- R30: STAT holds the last status byte read successfully, busy or not; nothing else but reset writes it. -/
def Obligations.StatHoldsTheLastStatusRead : Prop :=
  ∀ s t : State, step s = .next t →
    t.stat = (if s.nextInputs.rst = true then 0x00
      else if s.fst = .rdWait ∧ s.nextInputs.xrspValid = true ∧ s.nextInputs.xrspErr = false
        then s.nextInputs.xrspData else s.stat)

/-- R26, R166: the FSM moves only along the transitions of its rules; in particular the set-pointer write is answered
before a read is requested, and a request is presented only after the one before it was answered (R62). -/
def Obligations.FsmMovesOnlyAlongItsTransitions : Prop :=
  ∀ s t : State, step s = .next t → s.nextInputs.rst = false →
    fstMayFollow s.fst t.fst = true ∧
    (s.fst.isOutstanding = true → t.fst.isOutstanding = false → s.nextInputs.xrspValid = true) ∧
    (s.fst.isOutstanding = false → t.fst.isOutstanding = true →
      s.fst.isRequesting = true ∧ s.nextInputs.xreqReady = true)

/-- R105: the FSM writes only ELAP, FST, RES and STAT, and nothing in IDLE; a command writes ELAP, FST or RES only when it
is a WAIT.READY accepted in IDLE, and never STAT; so the order of the two write sets cannot be observed. -/
def Obligations.WritesOfOneCycleNeverCollide : Prop :=
  ∀ (s t : State) (inp : Inputs), consume inp s = .next t →
    let w := (fsmStep Config.params s inp).1
    ((s.applyFsm w).crcUnit = s.crcUnit ∧ (s.applyFsm w).tmo = s.tmo ∧ (s.applyFsm w).rej = s.rej ∧
      (s.applyFsm w).ill = s.ill) ∧
    (s.fst = .idle → w = ⟨none, none, none, none⟩) ∧
    ((t.elap ≠ s.elap ∨ t.fst ≠ s.fst ∨ t.res ≠ s.res) →
      s.fst = .idle ∧ inp.cmdValid = true ∧ ∃ sp, decodeWord inp.cmdWord = .command (.waitReady sp)) ∧
    t.stat = s.stat ∧
    (t.applyFsm w).elap = (if t.elap ≠ s.elap then t.elap else (s.applyFsm w).elap) ∧
    (t.applyFsm w).fst = (if t.fst ≠ s.fst then t.fst else (s.applyFsm w).fst) ∧
    (t.applyFsm w).res = (if t.res ≠ s.res then t.res else (s.applyFsm w).res) ∧
    (t.applyFsm w).stat = (s.applyFsm w).stat

/-- R63, R111: the two sub-units share no state. The wait FSM's next elements and `done` do not depend on the CRC unit or
on which command other than WAIT.READY and SET.TMO a cycle presents; the CRC unit's next elements do not depend on the
wait FSM, the ticks or the transport. -/
def Obligations.SubUnitsShareNoState : Prop :=
  (∀ (s t s' t' : State) (inp : Inputs) (v : Bool) (w : Word) (a : BitVec 3), s.waitUnit = s'.waitUnit →
    (∀ sp, ¬ presents inp (.waitReady sp)) → (∀ d, ¬ presents inp (.setTmo d)) →
    (∀ sp, ¬ presents { inp with cmdValid := v, cmdWord := w, rdAddr := a } (.waitReady sp)) →
    (∀ d, ¬ presents { inp with cmdValid := v, cmdWord := w, rdAddr := a } (.setTmo d)) →
    step (s.present inp) = .next t →
    step (s'.present { inp with cmdValid := v, cmdWord := w, rdAddr := a }) = .next t' →
    t.waitUnit = t'.waitUnit ∧ t.out.done = t'.out.done) ∧
  ∀ (s t s' t' : State) (inp inp' : Inputs), s.crcUnit = s'.crcUnit →
    inp.rst = inp'.rst → inp.cmdValid = inp'.cmdValid → inp.cmdWord = inp'.cmdWord →
    step (s.present inp) = .next t → step (s'.present inp') = .next t' →
    t.crcUnit = t'.crcUnit

/-- From every state that meets the invariant, a cycle with any inputs gives a state that meets it. -/
def Obligations.EveryCycleKeepsTheInvariant : Prop :=
  ∀ s t : State, s.Inv → step s = .next t → t.Inv

/-- The invariant holds at reset. -/
def Obligations.InvariantHoldsAtReset : Prop := State.reset.Inv

/-- R176: every accepted wait ends, writing RES and pulsing `done`, no later than the cycle of the TMO-th tick after its
acceptance cycle, whatever the transport and the host do; without ticks a wait can stay active for ever. -/
def Obligations.EveryWaitEndsByItsDeadline : Prop :=
  (∀ (s : State) (sp : Bool), s.Inv → s.fst = .idle → presents s.nextInputs (.waitReady sp) →
    ∃ s', step s = .next s' ∧ s'.fst.isActive = true ∧ s'.elap = 0 ∧
      ∀ n : Nat, noReset (upcoming n s') = true → s'.tmo.toNat ≤ ticksIn (upcoming n s') →
        ∃ t ∈ trace n s', t.out.done = true ∧ t.res ≠ .none) ∧
  ∀ (n : Nat) (s : State), s.Inv → s.fst = .rdReq → noReset (upcoming n s) = true →
    (∀ i ∈ upcoming n s, i.tick = false ∧ i.xreqReady = false) →
    ∃ t, runSteps n s = .next t ∧ t.fst = .rdReq ∧ t.res = .none

/-- R164, U6: a DRAIN whose response never comes lasts until reset, for any number of cycles and whatever else arrives. -/
def Obligations.DrainLastsUntilAnswered : Prop :=
  ∀ (n : Nat) (s : State), s.Inv → s.fst = .drain → noReset (upcoming n s) = true →
    (∀ i ∈ upcoming n s, i.xrspValid = false) →
    ∃ t, runSteps n s = .next t ∧ t.fst = .drain ∧ t.res = .timeout ∧ t.stat = s.stat ∧ t.elap = s.elap

/-- R177: the shortest waits, in cycles without ticks, with a transport that accepts at once and answers in the next
cycle: `done` in cycle 2 with S = 0, in cycle 4 with S = 1, the acceptance cycle being 0; each busy poll adds 2. -/
def Obligations.ShortestWaits : Prop :=
  (∀ (s : State) (d : Byte), s.Inv → s.fst = .idle → d.getLsbD 0 = false →
    (trace 3 { s with inputs := [Inputs.command 0x3000, .ready, .response d] }).map (fun t => (t.out.done, t.res)) =
      [(false, .none), (false, .none), (true, .ready)]) ∧
  (∀ (s : State) (d e : Byte), s.Inv → s.fst = .idle → d.getLsbD 0 = false →
    (trace 5 { s with inputs := [Inputs.command 0x3100, .ready, .response e, .ready, .response d] }).map
        (fun t => (t.out.done, t.res)) =
      [(false, .none), (false, .none), (false, .none), (false, .none), (true, .ready)]) ∧
  ∀ (s : State) (d : Byte), s.Inv → s.fst = .rdReq → d.getLsbD 0 = true →
    ∃ t, runSteps 2 { s with inputs := [.ready, .response d] } = .next t ∧
      t.waitUnit = { s.waitUnit with stat := d } ∧ t.out.done = false

/-- The model follows R154 where R22 and R32 say that ELAP is at most TMO (log 5): in IDLE, SET.TMO may set TMO below the
ELAP of the last wait. In every other state ELAP stays within TMO. -/
def Obligations.ElapMayExceedTmoOnlyInIdle : Prop :=
  (∃ (ins : List Inputs) (t : State), runSteps ins.length { State.reset with inputs := ins } = .next t ∧
    t.fst = .idle ∧ t.tmo.toNat < t.elap.toNat) ∧
  ∀ s : State, s.Inv → s.fst ≠ .idle → s.elap.toNat ≤ s.tmo.toNat

/-! ## Source text -/

/-- R81: the words of the four pseudo-commands. -/
def Obligations.PseudoCommandsExpand : Prop :=
  (∀ b0 b1 b2 b3 b4 b5 b6 b7 : Byte,
    assemble (.crcCheck8 [b0.toNat, b1.toNat, b2.toNat, b3.toNat, b4.toNat, b5.toNat, b6.toNat, b7.toNat]) =
      some (encode .crcClr :: [b0, b1, b2, b3, b4, b5, b6, b7].map (fun b => encode (.crcByte b)))) ∧
  (∀ b0 b1 b2 b3 b4 b5 b6 : Byte,
    assemble (.crcGen7 [b0.toNat, b1.toNat, b2.toNat, b3.toNat, b4.toNat, b5.toNat, b6.toNat]) =
      some (encode .crcClr :: [b0, b1, b2, b3, b4, b5, b6].map (fun b => encode (.crcByte b)))) ∧
  assemble .waitCmd = assemble (.waitReady true) ∧ assemble .waitResult = assemble (.waitReady false)

/-- R80: an operand from 0 to 255 gives the command's word, and an operand outside is an assembly error; `.word` places
its word as is. -/
def Obligations.OperandsOutOfRangeAreAssemblyErrors : Prop :=
  (∀ d : Nat, d ≤ 255 →
    assemble (.crcByte d) = some [0x2000#16 + BitVec.ofNat 16 d] ∧
    assemble (.setTmo d) = some [0x4000#16 + BitVec.ofNat 16 d]) ∧
  (∀ d : Nat, 255 < d → assemble (.crcByte d) = none ∧ assemble (.setTmo d) = none) ∧
  assemble (.waitReady false) = some [0x3000] ∧ assemble (.waitReady true) = some [0x3100] ∧
  ∀ w : Word, assemble (.word w.toNat) = some [w]
end

