-- ==== Sys2Proof/Laws/Config.lean ====
section
/-! SUPPORT. The decided parameters of R7, one lemma per field of the record. `params_idBytes` is no simp lemma: the
definitions that compare with it have lemmas with the number 8 written in (Laws/Ops.lean, Laws/Units.lean). -/

namespace Sys2Proof

@[simp] theorem params_polyRefl : Config.params.polyRefl = 0x8C := rfl
@[simp] theorem params_crcInit : Config.params.crcInit = 0x00 := rfl
theorem params_idBytes : Config.params.idBytes = 8 := rfl
@[simp] theorem params_busyBit : Config.params.busyBit = 0 := rfl
@[simp] theorem params_srpCmd : Config.params.srpCmd = 0xE1 := rfl
@[simp] theorem params_statusPtr : Config.params.statusPtr = 0xF0 := rfl
@[simp] theorem params_tmoReset : Config.params.tmoReset = 20 := rfl

end Sys2Proof
end

