-- ==== Sys2Proof/Laws/State.lean ====
section
/-! SUPPORT. One lemma per field of State per named operation of Machine/Ops.lean, true by definition: what the operation
leaves in the field. Later proofs cite these and unfold no record update. -/

namespace Sys2Proof.Machine

variable (s : State)

/-! ## present -/

@[simp] theorem present_crc (inp : Inputs) : (s.present inp).crc = s.crc := rfl
@[simp] theorem present_cnt (inp : Inputs) : (s.present inp).cnt = s.cnt := rfl
@[simp] theorem present_fam (inp : Inputs) : (s.present inp).fam = s.fam := rfl
@[simp] theorem present_ovf (inp : Inputs) : (s.present inp).ovf = s.ovf := rfl
@[simp] theorem present_tmo (inp : Inputs) : (s.present inp).tmo = s.tmo := rfl
@[simp] theorem present_elap (inp : Inputs) : (s.present inp).elap = s.elap := rfl
@[simp] theorem present_fst (inp : Inputs) : (s.present inp).fst = s.fst := rfl
@[simp] theorem present_res (inp : Inputs) : (s.present inp).res = s.res := rfl
@[simp] theorem present_stat (inp : Inputs) : (s.present inp).stat = s.stat := rfl
@[simp] theorem present_rej (inp : Inputs) : (s.present inp).rej = s.rej := rfl
@[simp] theorem present_ill (inp : Inputs) : (s.present inp).ill = s.ill := rfl
@[simp] theorem present_inputs (inp : Inputs) : (s.present inp).inputs = inp :: s.inputs := rfl
@[simp] theorem present_cycle (inp : Inputs) : (s.present inp).cycle = s.cycle := rfl
@[simp] theorem present_out (inp : Inputs) : (s.present inp).out = s.out := rfl

/-! ## flagIllegal -/

@[simp] theorem flagIllegal_crc : (s.flagIllegal).crc = s.crc := rfl
@[simp] theorem flagIllegal_cnt : (s.flagIllegal).cnt = s.cnt := rfl
@[simp] theorem flagIllegal_fam : (s.flagIllegal).fam = s.fam := rfl
@[simp] theorem flagIllegal_ovf : (s.flagIllegal).ovf = s.ovf := rfl
@[simp] theorem flagIllegal_tmo : (s.flagIllegal).tmo = s.tmo := rfl
@[simp] theorem flagIllegal_elap : (s.flagIllegal).elap = s.elap := rfl
@[simp] theorem flagIllegal_fst : (s.flagIllegal).fst = s.fst := rfl
@[simp] theorem flagIllegal_res : (s.flagIllegal).res = s.res := rfl
@[simp] theorem flagIllegal_stat : (s.flagIllegal).stat = s.stat := rfl
@[simp] theorem flagIllegal_rej : (s.flagIllegal).rej = s.rej := rfl
@[simp] theorem flagIllegal_ill : (s.flagIllegal).ill = true := rfl
@[simp] theorem flagIllegal_inputs : (s.flagIllegal).inputs = s.inputs := rfl
@[simp] theorem flagIllegal_cycle : (s.flagIllegal).cycle = s.cycle := rfl
@[simp] theorem flagIllegal_out : (s.flagIllegal).out = s.out := rfl

/-! ## reject -/

@[simp] theorem reject_crc : (s.reject).crc = s.crc := rfl
@[simp] theorem reject_cnt : (s.reject).cnt = s.cnt := rfl
@[simp] theorem reject_fam : (s.reject).fam = s.fam := rfl
@[simp] theorem reject_ovf : (s.reject).ovf = s.ovf := rfl
@[simp] theorem reject_tmo : (s.reject).tmo = s.tmo := rfl
@[simp] theorem reject_elap : (s.reject).elap = s.elap := rfl
@[simp] theorem reject_fst : (s.reject).fst = s.fst := rfl
@[simp] theorem reject_res : (s.reject).res = s.res := rfl
@[simp] theorem reject_stat : (s.reject).stat = s.stat := rfl
@[simp] theorem reject_rej : (s.reject).rej = true := rfl
@[simp] theorem reject_ill : (s.reject).ill = s.ill := rfl
@[simp] theorem reject_inputs : (s.reject).inputs = s.inputs := rfl
@[simp] theorem reject_cycle : (s.reject).cycle = s.cycle := rfl
@[simp] theorem reject_out : (s.reject).out = s.out := rfl

/-! ## clearErrors -/

@[simp] theorem clearErrors_crc : (s.clearErrors).crc = s.crc := rfl
@[simp] theorem clearErrors_cnt : (s.clearErrors).cnt = s.cnt := rfl
@[simp] theorem clearErrors_fam : (s.clearErrors).fam = s.fam := rfl
@[simp] theorem clearErrors_ovf : (s.clearErrors).ovf = s.ovf := rfl
@[simp] theorem clearErrors_tmo : (s.clearErrors).tmo = s.tmo := rfl
@[simp] theorem clearErrors_elap : (s.clearErrors).elap = s.elap := rfl
@[simp] theorem clearErrors_fst : (s.clearErrors).fst = s.fst := rfl
@[simp] theorem clearErrors_res : (s.clearErrors).res = s.res := rfl
@[simp] theorem clearErrors_stat : (s.clearErrors).stat = s.stat := rfl
@[simp] theorem clearErrors_rej : (s.clearErrors).rej = false := rfl
@[simp] theorem clearErrors_ill : (s.clearErrors).ill = false := rfl
@[simp] theorem clearErrors_inputs : (s.clearErrors).inputs = s.inputs := rfl
@[simp] theorem clearErrors_cycle : (s.clearErrors).cycle = s.cycle := rfl
@[simp] theorem clearErrors_out : (s.clearErrors).out = s.out := rfl

/-! ## clearCrc -/

@[simp] theorem clearCrc_crc (P : Params) : (s.clearCrc P).crc = P.crcInit := rfl
@[simp] theorem clearCrc_cnt (P : Params) : (s.clearCrc P).cnt = 0 := rfl
@[simp] theorem clearCrc_fam (P : Params) : (s.clearCrc P).fam = 0 := rfl
@[simp] theorem clearCrc_ovf (P : Params) : (s.clearCrc P).ovf = false := rfl
@[simp] theorem clearCrc_tmo (P : Params) : (s.clearCrc P).tmo = s.tmo := rfl
@[simp] theorem clearCrc_elap (P : Params) : (s.clearCrc P).elap = s.elap := rfl
@[simp] theorem clearCrc_fst (P : Params) : (s.clearCrc P).fst = s.fst := rfl
@[simp] theorem clearCrc_res (P : Params) : (s.clearCrc P).res = s.res := rfl
@[simp] theorem clearCrc_stat (P : Params) : (s.clearCrc P).stat = s.stat := rfl
@[simp] theorem clearCrc_rej (P : Params) : (s.clearCrc P).rej = s.rej := rfl
@[simp] theorem clearCrc_ill (P : Params) : (s.clearCrc P).ill = s.ill := rfl
@[simp] theorem clearCrc_inputs (P : Params) : (s.clearCrc P).inputs = s.inputs := rfl
@[simp] theorem clearCrc_cycle (P : Params) : (s.clearCrc P).cycle = s.cycle := rfl
@[simp] theorem clearCrc_out (P : Params) : (s.clearCrc P).out = s.out := rfl

/-! ## takeByte -/

@[simp] theorem takeByte_crc (r d : Byte) : (s.takeByte r d).crc = r := rfl
@[simp] theorem takeByte_cnt (r d : Byte) : (s.takeByte r d).cnt = s.cnt + 1 := rfl
@[simp] theorem takeByte_fam (r d : Byte) : (s.takeByte r d).fam = if s.cnt = 0 then d else s.fam := rfl
@[simp] theorem takeByte_ovf (r d : Byte) : (s.takeByte r d).ovf = s.ovf := rfl
@[simp] theorem takeByte_tmo (r d : Byte) : (s.takeByte r d).tmo = s.tmo := rfl
@[simp] theorem takeByte_elap (r d : Byte) : (s.takeByte r d).elap = s.elap := rfl
@[simp] theorem takeByte_fst (r d : Byte) : (s.takeByte r d).fst = s.fst := rfl
@[simp] theorem takeByte_res (r d : Byte) : (s.takeByte r d).res = s.res := rfl
@[simp] theorem takeByte_stat (r d : Byte) : (s.takeByte r d).stat = s.stat := rfl
@[simp] theorem takeByte_rej (r d : Byte) : (s.takeByte r d).rej = s.rej := rfl
@[simp] theorem takeByte_ill (r d : Byte) : (s.takeByte r d).ill = s.ill := rfl
@[simp] theorem takeByte_inputs (r d : Byte) : (s.takeByte r d).inputs = s.inputs := rfl
@[simp] theorem takeByte_cycle (r d : Byte) : (s.takeByte r d).cycle = s.cycle := rfl
@[simp] theorem takeByte_out (r d : Byte) : (s.takeByte r d).out = s.out := rfl

/-! ## overrun -/

@[simp] theorem overrun_crc : (s.overrun).crc = s.crc := rfl
@[simp] theorem overrun_cnt : (s.overrun).cnt = s.cnt := rfl
@[simp] theorem overrun_fam : (s.overrun).fam = s.fam := rfl
@[simp] theorem overrun_ovf : (s.overrun).ovf = true := rfl
@[simp] theorem overrun_tmo : (s.overrun).tmo = s.tmo := rfl
@[simp] theorem overrun_elap : (s.overrun).elap = s.elap := rfl
@[simp] theorem overrun_fst : (s.overrun).fst = s.fst := rfl
@[simp] theorem overrun_res : (s.overrun).res = s.res := rfl
@[simp] theorem overrun_stat : (s.overrun).stat = s.stat := rfl
@[simp] theorem overrun_rej : (s.overrun).rej = s.rej := rfl
@[simp] theorem overrun_ill : (s.overrun).ill = s.ill := rfl
@[simp] theorem overrun_inputs : (s.overrun).inputs = s.inputs := rfl
@[simp] theorem overrun_cycle : (s.overrun).cycle = s.cycle := rfl
@[simp] theorem overrun_out : (s.overrun).out = s.out := rfl

/-! ## startWait -/

@[simp] theorem startWait_crc (f : Fst) : (s.startWait f).crc = s.crc := rfl
@[simp] theorem startWait_cnt (f : Fst) : (s.startWait f).cnt = s.cnt := rfl
@[simp] theorem startWait_fam (f : Fst) : (s.startWait f).fam = s.fam := rfl
@[simp] theorem startWait_ovf (f : Fst) : (s.startWait f).ovf = s.ovf := rfl
@[simp] theorem startWait_tmo (f : Fst) : (s.startWait f).tmo = s.tmo := rfl
@[simp] theorem startWait_elap (f : Fst) : (s.startWait f).elap = 0 := rfl
@[simp] theorem startWait_fst (f : Fst) : (s.startWait f).fst = f := rfl
@[simp] theorem startWait_res (f : Fst) : (s.startWait f).res = .none := rfl
@[simp] theorem startWait_stat (f : Fst) : (s.startWait f).stat = s.stat := rfl
@[simp] theorem startWait_rej (f : Fst) : (s.startWait f).rej = s.rej := rfl
@[simp] theorem startWait_ill (f : Fst) : (s.startWait f).ill = s.ill := rfl
@[simp] theorem startWait_inputs (f : Fst) : (s.startWait f).inputs = s.inputs := rfl
@[simp] theorem startWait_cycle (f : Fst) : (s.startWait f).cycle = s.cycle := rfl
@[simp] theorem startWait_out (f : Fst) : (s.startWait f).out = s.out := rfl

/-! ## writeTmo -/

@[simp] theorem writeTmo_crc (v : Byte) : (s.writeTmo v).crc = s.crc := rfl
@[simp] theorem writeTmo_cnt (v : Byte) : (s.writeTmo v).cnt = s.cnt := rfl
@[simp] theorem writeTmo_fam (v : Byte) : (s.writeTmo v).fam = s.fam := rfl
@[simp] theorem writeTmo_ovf (v : Byte) : (s.writeTmo v).ovf = s.ovf := rfl
@[simp] theorem writeTmo_tmo (v : Byte) : (s.writeTmo v).tmo = v := rfl
@[simp] theorem writeTmo_elap (v : Byte) : (s.writeTmo v).elap = s.elap := rfl
@[simp] theorem writeTmo_fst (v : Byte) : (s.writeTmo v).fst = s.fst := rfl
@[simp] theorem writeTmo_res (v : Byte) : (s.writeTmo v).res = s.res := rfl
@[simp] theorem writeTmo_stat (v : Byte) : (s.writeTmo v).stat = s.stat := rfl
@[simp] theorem writeTmo_rej (v : Byte) : (s.writeTmo v).rej = s.rej := rfl
@[simp] theorem writeTmo_ill (v : Byte) : (s.writeTmo v).ill = s.ill := rfl
@[simp] theorem writeTmo_inputs (v : Byte) : (s.writeTmo v).inputs = s.inputs := rfl
@[simp] theorem writeTmo_cycle (v : Byte) : (s.writeTmo v).cycle = s.cycle := rfl
@[simp] theorem writeTmo_out (v : Byte) : (s.writeTmo v).out = s.out := rfl

/-! ## applyFsm -/

@[simp] theorem applyFsm_crc (w : FsmWrites) : (s.applyFsm w).crc = s.crc := rfl
@[simp] theorem applyFsm_cnt (w : FsmWrites) : (s.applyFsm w).cnt = s.cnt := rfl
@[simp] theorem applyFsm_fam (w : FsmWrites) : (s.applyFsm w).fam = s.fam := rfl
@[simp] theorem applyFsm_ovf (w : FsmWrites) : (s.applyFsm w).ovf = s.ovf := rfl
@[simp] theorem applyFsm_tmo (w : FsmWrites) : (s.applyFsm w).tmo = s.tmo := rfl
@[simp] theorem applyFsm_elap (w : FsmWrites) : (s.applyFsm w).elap = w.elap.getD s.elap := rfl
@[simp] theorem applyFsm_fst (w : FsmWrites) : (s.applyFsm w).fst = w.fst.getD s.fst := rfl
@[simp] theorem applyFsm_res (w : FsmWrites) : (s.applyFsm w).res = w.res.getD s.res := rfl
@[simp] theorem applyFsm_stat (w : FsmWrites) : (s.applyFsm w).stat = w.stat.getD s.stat := rfl
@[simp] theorem applyFsm_rej (w : FsmWrites) : (s.applyFsm w).rej = s.rej := rfl
@[simp] theorem applyFsm_ill (w : FsmWrites) : (s.applyFsm w).ill = s.ill := rfl
@[simp] theorem applyFsm_inputs (w : FsmWrites) : (s.applyFsm w).inputs = s.inputs := rfl
@[simp] theorem applyFsm_cycle (w : FsmWrites) : (s.applyFsm w).cycle = s.cycle := rfl
@[simp] theorem applyFsm_out (w : FsmWrites) : (s.applyFsm w).out = s.out := rfl

/-! ## loadReset -/

@[simp] theorem loadReset_crc (P : Params) : (s.loadReset P).crc = P.crcInit := rfl
@[simp] theorem loadReset_cnt (P : Params) : (s.loadReset P).cnt = 0 := rfl
@[simp] theorem loadReset_fam (P : Params) : (s.loadReset P).fam = 0 := rfl
@[simp] theorem loadReset_ovf (P : Params) : (s.loadReset P).ovf = false := rfl
@[simp] theorem loadReset_tmo (P : Params) : (s.loadReset P).tmo = P.tmoReset := rfl
@[simp] theorem loadReset_elap (P : Params) : (s.loadReset P).elap = 0 := rfl
@[simp] theorem loadReset_fst (P : Params) : (s.loadReset P).fst = .idle := rfl
@[simp] theorem loadReset_res (P : Params) : (s.loadReset P).res = .none := rfl
@[simp] theorem loadReset_stat (P : Params) : (s.loadReset P).stat = 0 := rfl
@[simp] theorem loadReset_rej (P : Params) : (s.loadReset P).rej = false := rfl
@[simp] theorem loadReset_ill (P : Params) : (s.loadReset P).ill = false := rfl
@[simp] theorem loadReset_inputs (P : Params) : (s.loadReset P).inputs = s.inputs := rfl
@[simp] theorem loadReset_cycle (P : Params) : (s.loadReset P).cycle = s.cycle := rfl
@[simp] theorem loadReset_out (P : Params) : (s.loadReset P).out = s.out := rfl

/-! ## endCycle -/

@[simp] theorem endCycle_crc (o : Outputs) : (s.endCycle o).crc = s.crc := rfl
@[simp] theorem endCycle_cnt (o : Outputs) : (s.endCycle o).cnt = s.cnt := rfl
@[simp] theorem endCycle_fam (o : Outputs) : (s.endCycle o).fam = s.fam := rfl
@[simp] theorem endCycle_ovf (o : Outputs) : (s.endCycle o).ovf = s.ovf := rfl
@[simp] theorem endCycle_tmo (o : Outputs) : (s.endCycle o).tmo = s.tmo := rfl
@[simp] theorem endCycle_elap (o : Outputs) : (s.endCycle o).elap = s.elap := rfl
@[simp] theorem endCycle_fst (o : Outputs) : (s.endCycle o).fst = s.fst := rfl
@[simp] theorem endCycle_res (o : Outputs) : (s.endCycle o).res = s.res := rfl
@[simp] theorem endCycle_stat (o : Outputs) : (s.endCycle o).stat = s.stat := rfl
@[simp] theorem endCycle_rej (o : Outputs) : (s.endCycle o).rej = s.rej := rfl
@[simp] theorem endCycle_ill (o : Outputs) : (s.endCycle o).ill = s.ill := rfl
@[simp] theorem endCycle_inputs (o : Outputs) : (s.endCycle o).inputs = s.inputs.tail := rfl
@[simp] theorem endCycle_cycle (o : Outputs) : (s.endCycle o).cycle = s.cycle + 1 := rfl
@[simp] theorem endCycle_out (o : Outputs) : (s.endCycle o).out = o := rfl

/-! ## The next inputs -/

@[simp] theorem nextInputs_present (inp : Inputs) : (s.present inp).nextInputs = inp := rfl

theorem nextInputs_cons {s : State} {i : Inputs} {is : List Inputs} (h : s.inputs = i :: is) : s.nextInputs = i := by
  simp [State.nextInputs, h]

theorem nextInputs_nil {s : State} (h : s.inputs = []) : s.nextInputs = Config.freeInputs s.cycle := by
  simp [State.nextInputs, h]

end Sys2Proof.Machine
end

