-- ==== Sys2Proof/Laws/Ops.lean ====
section
/-! SUPPORT. What each shared operation can do, said once: a cycle's command, the wait FSM in each of its states, and the
cycle itself. Proofs about `step` cite these. -/

namespace Sys2Proof.Machine

/-! ## The meanings in terms of the named operations -/

@[simp] theorem exec_nop (s : State) : exec .nop s = .next s := rfl

@[simp] theorem exec_clrErr (s : State) : exec .clrErr s = .next s.clearErrors := rfl

@[simp] theorem exec_crcClr (s : State) : exec .crcClr s = .next (s.clearCrc Config.params) := rfl

@[simp] theorem exec_waitReady (sp : Bool) (s : State) :
    exec (.waitReady sp) s = .next (acceptInIdle s (s.startWait (waitStart sp))) := rfl

@[simp] theorem exec_setTmo (d : Byte) (s : State) :
    exec (.setTmo d) s = .next (acceptInIdle s (s.writeTmo (legalTmo d))) := rfl

theorem exec_crcByte_room {d : Byte} {s : State} (h : s.cnt.toNat < 8) :
    exec (.crcByte d) s = .next (s.takeByte (crcNext Config.params s.crc d) d) := if_pos h

theorem exec_crcByte_full {d : Byte} {s : State} (h : ¬ s.cnt.toNat < 8) :
    exec (.crcByte d) s = .next s.overrun := if_neg h

theorem acceptInIdle_idle {s : State} (accepted : State) (h : s.fst = .idle) : acceptInIdle s accepted = accepted :=
  if_pos h

theorem acceptInIdle_busy {s : State} (accepted : State) (h : s.fst ≠ .idle) : acceptInIdle s accepted = s.reject :=
  if_neg h

/-! ## Definitions that compare with the identifier length, at 8 (R7) -/

theorem verdict_eight (s : State) : verdict Config.params s =
    if s.cnt.toNat < 8 then .incomplete else if s.fam = 0 then .romInvalid
    else if s.crc ≠ 0 then .crcMismatch else .valid := rfl

theorem fullFlag_eight (s : State) : fullFlag Config.params s = (s.cnt.toNat == 8) := rfl

/-! ## The command of a cycle -/

theorem consume_noCommand {inp : Inputs} (s : State) (h : inp.cmdValid = false) : consume inp s = .next s := by
  simp [consume, h]

theorem consume_command {inp : Inputs} {c : Instr} (s : State) (h : inp.cmdValid = true)
    (hd : decodeWord inp.cmdWord = .command c) : consume inp s = exec c s := by
  simp [consume, h, hd]

theorem consume_illegal {inp : Inputs} {why : IllegalCause} (s : State) (h : inp.cmdValid = true)
    (hd : decodeWord inp.cmdWord = .illegal why) : consume inp s = .next s.flagIllegal := by
  simp [consume, h, hd]

/-- What a cycle's command can do, with the condition of each case. -/
theorem consume_cases (inp : Inputs) (s : State) :
    ∃ t, consume inp s = .next t ∧
      ((t = s ∧ (inp.cmdValid = false ∨ decodeWord inp.cmdWord = .command .nop)) ∨
       (inp.cmdValid = true ∧ (∃ why, decodeWord inp.cmdWord = .illegal why) ∧ t = s.flagIllegal) ∨
       (inp.cmdValid = true ∧ decodeWord inp.cmdWord = .command .clrErr ∧ t = s.clearErrors) ∨
       (inp.cmdValid = true ∧ decodeWord inp.cmdWord = .command .crcClr ∧ t = s.clearCrc Config.params) ∨
       (∃ d, inp.cmdValid = true ∧ decodeWord inp.cmdWord = .command (.crcByte d) ∧
         s.cnt.toNat < 8 ∧ t = s.takeByte (crcNext Config.params s.crc d) d) ∨
       (∃ d, inp.cmdValid = true ∧ decodeWord inp.cmdWord = .command (.crcByte d) ∧
         ¬ s.cnt.toNat < 8 ∧ t = s.overrun) ∨
       (∃ sp, inp.cmdValid = true ∧ decodeWord inp.cmdWord = .command (.waitReady sp) ∧ s.fst = .idle ∧
         t = s.startWait (waitStart sp)) ∨
       (∃ d, inp.cmdValid = true ∧ decodeWord inp.cmdWord = .command (.setTmo d) ∧ s.fst = .idle ∧
         t = s.writeTmo (legalTmo d)) ∨
       (∃ c, inp.cmdValid = true ∧ decodeWord inp.cmdWord = .command c ∧
         ((∃ sp, c = .waitReady sp) ∨ ∃ d, c = .setTmo d) ∧ s.fst ≠ .idle ∧ t = s.reject)) := by
  unfold consume
  cases hv : inp.cmdValid with
  | false => exact ⟨s, rfl, .inl ⟨rfl, .inl rfl⟩⟩
  | true =>
    cases hd : decodeWord inp.cmdWord with
    | illegal why => exact ⟨_, rfl, .inr (.inl ⟨rfl, ⟨why, rfl⟩, rfl⟩)⟩
    | command c =>
      cases c with
      | nop => exact ⟨s, rfl, .inl ⟨rfl, .inr rfl⟩⟩
      | clrErr => exact ⟨_, rfl, by simp⟩
      | crcClr => exact ⟨_, rfl, by simp⟩
      | crcByte d =>
        by_cases h : s.cnt.toNat < 8
        · exact ⟨_, exec_crcByte_room h, by simp [h]⟩
        · exact ⟨_, exec_crcByte_full h, by simp [h]⟩
      | waitReady sp =>
        by_cases h : s.fst = .idle
        · exact ⟨_, rfl, by simp [acceptInIdle_idle _ h, h]⟩
        · exact ⟨_, rfl, by simp [acceptInIdle_busy _ h, h]⟩
      | setTmo d =>
        by_cases h : s.fst = .idle
        · exact ⟨_, rfl, by simp [acceptInIdle_idle _ h, h]⟩
        · exact ⟨_, rfl, by simp [acceptInIdle_busy _ h, h]⟩

/-- While the FSM is not in IDLE, a command leaves the wait FSM's elements as they were. -/
theorem consume_keeps_wait {inp : Inputs} {s t : State} (h : consume inp s = .next t) (hf : s.fst ≠ .idle) :
    t.tmo = s.tmo ∧ t.elap = s.elap ∧ t.fst = s.fst ∧ t.res = s.res ∧ t.stat = s.stat := by
  obtain ⟨u, hu, hc⟩ := consume_cases inp s
  obtain rfl : u = t := by simpa [hu] using h
  rcases hc with ⟨rfl, -⟩ | ⟨-, -, rfl⟩ | ⟨-, -, rfl⟩ | ⟨-, -, rfl⟩ | ⟨d, -, -, -, rfl⟩ | ⟨d, -, -, -, rfl⟩ |
    ⟨sp, -, -, hi, -⟩ | ⟨d, -, -, hi, -⟩ | ⟨c, -, -, -, -, rfl⟩
  all_goals first | exact absurd hi hf | simp

/-! ## The wait FSM in each state -/

theorem fsmStep_idle (P : Params) {s : State} (inp : Inputs) (h : s.fst = .idle) :
    fsmStep P s inp = (⟨none, none, none, none⟩, false) := by
  simp [fsmStep, h, goOn]

theorem fsmStep_drain (P : Params) {s : State} (inp : Inputs) (h : s.fst = .drain) :
    fsmStep P s inp = (⟨none, if inp.xrspValid then some .idle else none, none, none⟩, false) := by
  cases hv : inp.xrspValid <;> simp [fsmStep, h, goOn, hv]

theorem fsmStep_spReq (P : Params) {s : State} (inp : Inputs) (h : s.fst = .spReq) :
    fsmStep P s inp = requestStep (tickWrite s inp) (deadlineHit s inp) inp.xreqReady .spWait := by
  simp [fsmStep, h]

theorem fsmStep_rdReq (P : Params) {s : State} (inp : Inputs) (h : s.fst = .rdReq) :
    fsmStep P s inp = requestStep (tickWrite s inp) (deadlineHit s inp) inp.xreqReady .rdWait := by
  simp [fsmStep, h]

/-- A deadline hit brings ELAP up to TMO. -/
theorem deadlineHit_iff (s : State) (inp : Inputs) :
    deadlineHit s inp = true ↔ s.fst.isActive = true ∧ inp.tick = true ∧ s.tmo.toNat ≤ s.elap.toNat + 1 := by
  simp [deadlineHit, countsTick, and_assoc]

/-- The wait FSM in one cycle, said once: it rests in IDLE and DRAIN (or leaves DRAIN at the response), or it is active
and the wait goes on, times out, ends READY, or ends XERR. -/
theorem fsmStep_cases (P : Params) (s : State) (inp : Inputs) :
    (s.fst.isActive = false ∧ (fsmStep P s inp).2 = false ∧
      ((fsmStep P s inp).1 = ⟨none, none, none, none⟩ ∨
       (s.fst = .drain ∧ inp.xrspValid = true ∧ (fsmStep P s inp).1 = ⟨none, some .idle, none, none⟩))) ∨
    (s.fst.isActive = true ∧ deadlineHit s inp = false ∧ ∃ f st,
      fsmStep P s inp = (⟨tickWrite s inp, f, none, st⟩, false) ∧
      (f = none ∨ ∃ g, f = some g ∧ g.isActive = true) ∧
      (st = none ∨ (s.fst = .rdWait ∧ inp.xrspValid = true ∧ inp.xrspErr = false ∧
        isBusy P inp.xrspData = true ∧ st = some inp.xrspData))) ∨
    (s.fst.isActive = true ∧ deadlineHit s inp = true ∧ ∃ g st,
      fsmStep P s inp = (⟨tickWrite s inp, some g, some .timeout, st⟩, true) ∧ (g = .idle ∨ g = .drain) ∧
      (st = none ∨ (s.fst = .rdWait ∧ inp.xrspValid = true ∧ inp.xrspErr = false ∧
        isBusy P inp.xrspData = true ∧ st = some inp.xrspData))) ∨
    (s.fst = .rdWait ∧ inp.xrspValid = true ∧ inp.xrspErr = false ∧ isBusy P inp.xrspData = false ∧
      fsmStep P s inp = (⟨tickWrite s inp, some .idle, some .ready, some inp.xrspData⟩, true)) ∨
    ((s.fst = .spWait ∨ s.fst = .rdWait) ∧ inp.xrspValid = true ∧ inp.xrspErr = true ∧
      fsmStep P s inp = (⟨tickWrite s inp, some .idle, some .xerr, none⟩, true)) := by
  cases hf : s.fst with
  | idle => simp [fsmStep_idle P inp hf, Fst.isActive]
  | drain => cases hv : inp.xrspValid <;> simp [fsmStep_drain P inp hf, hv, Fst.isActive]
  | spReq =>
    rw [fsmStep_spReq P inp hf]
    cases hh : deadlineHit s inp <;> cases ha : inp.xreqReady <;>
      simp [requestStep, endWait, goOn, Fst.isActive]
  | rdReq =>
    rw [fsmStep_rdReq P inp hf]
    cases hh : deadlineHit s inp <;> cases ha : inp.xreqReady <;>
      simp [requestStep, endWait, goOn, Fst.isActive]
  | spWait =>
    cases hh : deadlineHit s inp <;> cases hv : inp.xrspValid <;> cases he : inp.xrspErr <;>
      simp [fsmStep, hf, hh, hv, he, endWait, goOn, Fst.isActive]
  | rdWait =>
    cases hh : deadlineHit s inp <;> cases hv : inp.xrspValid <;> cases he : inp.xrspErr <;>
      cases hb : isBusy P inp.xrspData <;>
      simp [fsmStep, hf, hh, hv, he, hb, endWait, goOn, Fst.isActive]

/-! ## The cycle -/

theorem inLegalRange_iff (s : State) :
    inLegalRange Config.params s = true ↔ s.cnt.toNat ≤ 8 ∧ s.tmo ≠ 0 := by
  simp only [inLegalRange, Bool.and_eq_true, decide_eq_true_eq]
  exact Iff.rfl

theorem runCycle_reset {P : Params} {inp : Inputs} {s : State} (h : inp.rst = true) :
    runCycle P inp s = .next ((s.loadReset P).endCycle (outputs P s inp)) := by
  simp [runCycle, h]

theorem runCycle_legal {P : Params} {inp : Inputs} {s t : State} (h : inp.rst = false)
    (hl : inLegalRange P s = true) (hc : consume inp s = .next t) :
    runCycle P inp s = .next ((t.applyFsm (fsmStep P s inp).1).endCycle (outputs P s inp)) := by
  simp [runCycle, h, hl, hc]

theorem runCycle_refused {P : Params} {inp : Inputs} {s : State} (h : inp.rst = false)
    (hl : inLegalRange P s = false) : runCycle P inp s = .refused .noResetApplied := by
  simp [runCycle, h, hl]

/-- A cycle that completes is a reset cycle, or a cycle in the legal range that consumes its command. -/
theorem step_cases {s u : State} (h : step s = .next u) :
    (s.nextInputs.rst = true ∧
      u = (s.loadReset Config.params).endCycle (outputs Config.params s s.nextInputs)) ∨
    (s.nextInputs.rst = false ∧ inLegalRange Config.params s = true ∧
      ∃ t, consume s.nextInputs s = .next t ∧
        u = (t.applyFsm (fsmStep Config.params s s.nextInputs).1).endCycle
          (outputs Config.params s s.nextInputs)) := by
  unfold step at h
  cases hr : s.nextInputs.rst with
  | true =>
    rw [runCycle_reset hr] at h
    exact .inl ⟨rfl, by simpa using h.symm⟩
  | false =>
    cases hl : inLegalRange Config.params s with
    | false => rw [runCycle_refused hr hl] at h; simp at h
    | true =>
      obtain ⟨t, ht, -⟩ := consume_cases s.nextInputs s
      rw [runCycle_legal hr hl ht] at h
      exact .inr ⟨rfl, rfl, t, ht, by simpa using h.symm⟩

theorem step_present (s : State) (inp : Inputs) :
    step (s.present inp) = runCycle Config.params inp (s.present inp) := rfl

end Sys2Proof.Machine
end

