-- ==== Sys2Proof/Laws/PerInstr.lean ====
section
/-! SUPPORT. Statements made command by command. -/

namespace Sys2Proof.Laws.MaskMatch

/-- The word of a command matches the command's row of R72's mask and match table. -/
def Statement (i : Instr) : Prop := i.row.matchesWord (encode i) = true

theorem nop : Statement .nop := by unfold Statement; decide

theorem crcClr : Statement .crcClr := by unfold Statement; decide

theorem crcByte (d : Byte) : Statement (.crcByte d) := by
  revert d; unfold Statement; decide

theorem waitReady (s : Bool) : Statement (.waitReady s) := by
  revert s; unfold Statement; decide

theorem setTmo (d : Byte) : Statement (.setTmo d) := by
  revert d; unfold Statement; decide

theorem clrErr : Statement .clrErr := by unfold Statement; decide

end Sys2Proof.Laws.MaskMatch
end

