-- ==== Sys2Proof/Laws/ReadPort.lean ====
section
/-! SUPPORT. The register at each read address, and each output port of a cycle. -/

namespace Sys2Proof.Machine

variable (P : Params) (s : State) (inp : Inputs)

@[simp] theorem reg_zero : reg P s 0#3 = s.crc := rfl
@[simp] theorem reg_one : reg P s 1#3 = regCrcst P s := rfl
@[simp] theorem reg_two : reg P s 2#3 = s.fam := rfl
@[simp] theorem reg_three : reg P s 3#3 = regCrcres P s := rfl
@[simp] theorem reg_four : reg P s 4#3 = regWst s := rfl
@[simp] theorem reg_five : reg P s 5#3 = s.stat := rfl
@[simp] theorem reg_six : reg P s 6#3 = s.tmo := rfl
@[simp] theorem reg_seven : reg P s 7#3 = s.elap := rfl

@[simp] theorem outputs_rdData : (outputs P s inp).rdData = reg P s inp.rdAddr := rfl
@[simp] theorem outputs_xreqValid : (outputs P s inp).xreqValid = (!inp.rst && s.fst.isRequesting) := rfl
@[simp] theorem outputs_xreqKind : (outputs P s inp).xreqKind = (s.fst == .rdReq) := rfl
@[simp] theorem outputs_xreqCode : (outputs P s inp).xreqCode = if s.fst = .spReq then P.srpCmd else 0 := rfl
@[simp] theorem outputs_xreqParam : (outputs P s inp).xreqParam = if s.fst = .spReq then P.statusPtr else 0 := rfl
@[simp] theorem outputs_done : (outputs P s inp).done = (!inp.rst && (fsmStep P s inp).2) := rfl

end Sys2Proof.Machine
end

