-- ==== Sys2Proof/Laws/Units.lean ====
section
/-! SUPPORT. The two sub-units under each named operation, runs under one more cycle, and what a completed cycle does to
the fields the next inputs are read from. -/

namespace Sys2Proof.Machine

variable (s : State)

/-! ## An operation that leaves a sub-unit alone -/

@[simp] theorem crcUnit_flagIllegal : (s.flagIllegal).crcUnit = s.crcUnit := rfl
@[simp] theorem waitUnit_flagIllegal : (s.flagIllegal).waitUnit = s.waitUnit := rfl
@[simp] theorem crcUnit_reject : (s.reject).crcUnit = s.crcUnit := rfl
@[simp] theorem waitUnit_reject : (s.reject).waitUnit = s.waitUnit := rfl
@[simp] theorem crcUnit_clearErrors : (s.clearErrors).crcUnit = s.crcUnit := rfl
@[simp] theorem waitUnit_clearErrors : (s.clearErrors).waitUnit = s.waitUnit := rfl
@[simp] theorem waitUnit_overrun : (s.overrun).waitUnit = s.waitUnit := rfl
@[simp] theorem waitUnit_clearCrc (P : Params) : (s.clearCrc P).waitUnit = s.waitUnit := rfl
@[simp] theorem waitUnit_takeByte (r d : Byte) : (s.takeByte r d).waitUnit = s.waitUnit := rfl
@[simp] theorem crcUnit_startWait (f : Fst) : (s.startWait f).crcUnit = s.crcUnit := rfl
@[simp] theorem crcUnit_writeTmo (v : Byte) : (s.writeTmo v).crcUnit = s.crcUnit := rfl
@[simp] theorem crcUnit_applyFsm (w : FsmWrites) : (s.applyFsm w).crcUnit = s.crcUnit := rfl
@[simp] theorem crcUnit_endCycle (o : Outputs) : (s.endCycle o).crcUnit = s.crcUnit := rfl
@[simp] theorem waitUnit_endCycle (o : Outputs) : (s.endCycle o).waitUnit = s.waitUnit := rfl
@[simp] theorem crcUnit_present (inp : Inputs) : (s.present inp).crcUnit = s.crcUnit := rfl
@[simp] theorem waitUnit_present (inp : Inputs) : (s.present inp).waitUnit = s.waitUnit := rfl

/-! ## The CRC unit by the bytes fed, at 8 bytes (R7) -/

theorem unitOf_eight (bs : List Byte) : unitOf Config.params bs =
    ⟨remainder Config.params 0 (bs.take 8), BitVec.ofNat 4 (min bs.length 8), bs.headD 0, decide (8 < bs.length)⟩ := rfl

theorem crcUnit_eq_unitOf {s : State} {bs : List Byte} (h : s.crcUnit = unitOf Config.params bs) :
    s.crc = remainder Config.params 0 (bs.take 8) ∧ s.cnt.toNat = min bs.length 8 ∧ s.fam = bs.headD 0 ∧
      s.ovf = decide (8 < bs.length) := by
  rw [unitOf_eight] at h
  simp only [State.crcUnit, CrcUnit.mk.injEq] at h
  obtain ⟨hc, hn, hf, ho⟩ := h
  refine ⟨hc, ?_, hf, ho⟩
  rw [hn, BitVec.toNat_ofNat, Nat.mod_eq_of_lt (by omega)]

/-! ## The inputs to come -/

/-- A cycle presents at most one command. -/
theorem presents_unique {inp : Inputs} {c c' : Instr} (h : presents inp c) (h' : presents inp c') : c = c' :=
  Decoded.command.inj (h.2.2.symm.trans h'.2.2)

/-- A completed cycle has consumed one listed input and counted itself. -/
theorem step_inputs {s t : State} (h : step s = .next t) : t.inputs = s.inputs.tail ∧ t.cycle = s.cycle + 1 := by
  rcases step_cases h with ⟨-, rfl⟩ | ⟨-, -, u, hu, rfl⟩
  · simp
  · obtain ⟨v, hv, hc⟩ := consume_cases s.nextInputs s
    obtain rfl : v = u := by simpa [hv] using hu
    rcases hc with ⟨rfl, -⟩ | ⟨-, -, rfl⟩ | ⟨-, -, rfl⟩ | ⟨-, -, rfl⟩ | ⟨d, -, -, -, rfl⟩ | ⟨d, -, -, -, rfl⟩ |
      ⟨sp, -, -, -, rfl⟩ | ⟨d, -, -, -, rfl⟩ | ⟨c, -, -, -, -, rfl⟩
    all_goals simp

/-- The inputs to come depend on the listed inputs and the cycle number alone. -/
theorem upcoming_congr {s t : State} (hi : s.inputs = t.inputs) (hc : s.cycle = t.cycle) (n : Nat) :
    upcoming n s = upcoming n t := by
  induction n generalizing s t with
  | zero => rfl
  | succ n ih =>
    have hn : s.nextInputs = t.nextInputs := by simp [State.nextInputs, hi, hc]
    simp only [upcoming, hn]
    exact congrArg _ (ih (by simp [hi]) (by simp [hc]))

/-- The inputs of `n + 1` cycles are those of this one and of the `n` after it. -/
theorem upcoming_succ {s t : State} (h : step s = .next t) (n : Nat) :
    upcoming (n + 1) s = s.nextInputs :: upcoming n t := by
  obtain ⟨hi, hc⟩ := step_inputs h
  simp only [upcoming]
  exact congrArg _ (upcoming_congr (by simp [hi]) (by simp [hc]) n)

theorem runSteps_succ {s t : State} (h : step s = .next t) (n : Nat) : runSteps (n + 1) s = runSteps n t := by
  simp [runSteps, h]

theorem trace_succ {s t : State} (h : step s = .next t) (n : Nat) : trace (n + 1) s = t :: trace n t := by
  simp [trace, h]

end Sys2Proof.Machine
end

