-- ==== Sys2Proof/Tests/Slice0.lean ====
section
/-! SUPPORT. The model's own tests. Expected values are from 95_test_vectors.md and from the examples of the rules, never
from the model. The last part gives, for each statement with hypotheses, a state and operands that meet them. -/

namespace Sys2Proof.Tests

open Sys2Proof.Machine

/-! ## The syntax checks refuse ill-formed terms -/

theorem test_wellFormed_accepts_255 : (AsmLine.crcByte 255).wellFormed = true ∧ (AsmLine.setTmo 255).wellFormed = true ∧
    (AsmLine.word 0xFFFF).wellFormed = true ∧ (AsmLine.crcCheck8 [0, 1, 2, 3, 4, 5, 6, 255]).wellFormed = true ∧
    (AsmLine.crcGen7 [0, 1, 2, 3, 4, 5, 255]).wellFormed = true := by decide

theorem test_wellFormed_refuses_byte_256 : (AsmLine.crcByte 256).wellFormed = false := by decide

theorem test_wellFormed_refuses_timeout_256 : (AsmLine.setTmo 256).wellFormed = false := by decide

theorem test_wellFormed_refuses_word_of_17_bits : (AsmLine.word 65536).wellFormed = false := by decide

theorem test_wellFormed_refuses_check8_of_7_bytes : (AsmLine.crcCheck8 [0, 1, 2, 3, 4, 5, 6]).wellFormed = false := by
  decide

theorem test_wellFormed_refuses_check8_with_256 : (AsmLine.crcCheck8 [0, 1, 2, 3, 4, 5, 6, 256]).wellFormed = false := by
  decide

theorem test_wellFormed_refuses_gen7_of_8_bytes : (AsmLine.crcGen7 [0, 1, 2, 3, 4, 5, 6, 7]).wellFormed = false := by
  decide

theorem test_wellFormed_refuses_gen7_with_256 : (AsmLine.crcGen7 [256, 1, 2, 3, 4, 5, 6]).wellFormed = false := by decide

theorem test_params_wellFormed : Config.params.wellFormed = true := by decide

theorem test_params_refuse_busy_bit_8 : ({ Config.params with busyBit := 8 }).wellFormed = false := by decide

theorem test_params_refuse_no_bytes : ({ Config.params with idBytes := 0 }).wellFormed = false := by decide

theorem test_params_refuse_16_bytes : ({ Config.params with idBytes := 16 }).wellFormed = false := by decide

theorem test_params_refuse_deadline_0 : ({ Config.params with tmoReset := 0 }).wellFormed = false := by decide

/-! ## Decoding, words written out from R70 and R72 as `OP Z S D` -/

theorem test_decode_nop : decodeWord 0b0000_000_0_00000000#16 = .command .nop := by decide

theorem test_decode_crcClr : decodeWord 0b0001_000_0_00000000#16 = .command .crcClr := by decide

theorem test_decode_crcByte : decodeWord 0b0010_000_0_10011001#16 = .command (.crcByte 0x99) := by decide

theorem test_decode_waitReady : decodeWord 0b0011_000_0_00000000#16 = .command (.waitReady false) := by decide

theorem test_decode_waitReady_sp : decodeWord 0b0011_000_1_00000000#16 = .command (.waitReady true) := by decide

theorem test_decode_setTmo : decodeWord 0b0100_000_0_00010100#16 = .command (.setTmo 20) := by decide

theorem test_decode_clrErr : decodeWord 0b0101_000_0_00000000#16 = .command .clrErr := by decide

/-- One word for each cause of R74 and one in which several causes meet (log 10). -/
theorem test_decode_illegal : decodeWord 0x2E28 = .illegal .reservedField ∧ decodeWord 0x6000 = .illegal .reservedOpcode ∧
    decodeWord 0x4114 = .illegal .pointerFlag ∧ decodeWord 0x3101 = .illegal .dataField ∧
    decodeWord 0xFFFF = .illegal .reservedField := by decide

/-- The encoder's words, from the last column of the programs P1 to P4. -/
theorem test_encode : [Instr.nop, .crcClr, .crcByte 0xAA, .waitReady false, .waitReady true, .setTmo 10, .clrErr].map encode =
    [0x0000, 0x1000, 0x20AA, 0x3000, 0x3100, 0x400A, 0x5000] := by decide

theorem test_decodeTableWord : decodeTableWord 16 0x20FF = some (.crcByte 0xFF) ∧ decodeTableWord 16 0x2100 = none ∧
    decodeTableWord 8 0x00 = some .nop ∧ decodeTableWord 32 0x2028 = none := by decide

/-! ## One cycle -/

/-- The register view and `done` after one cycle, if it completes. -/
def after (s : State) (inp : Inputs) : Option (List Byte × Bool) :=
  match step (s.present inp) with
  | .next t => some (view Config.params t, t.out.done)
  | .fault _ => none
  | .refused _ => none

/-- A request for a read is presented, from the reset state. -/
def requesting : State := { State.reset with fst := .rdReq }

/-- A read is outstanding, one tick before a deadline of 2. -/
def polling : State := { State.reset with fst := .rdWait, tmo := 2, elap := 1 }

/-- A timeout of 1 has passed and a response is still to come. -/
def draining : State := { State.reset with fst := .drain, tmo := 1, elap := 1, res := .timeout }

/-- The identifier of V-SRC-1 without its check byte. -/
def sevenFed : State := { State.reset with crc := 0x99, cnt := 7, fam := 0x28 }

/-- The identifier of V-SRC-1. -/
def eightFed : State := { State.reset with cnt := 8, fam := 0x28 }

/-- V-CMD-1, cycle 3. -/
theorem test_nop_keeps_ill : after { State.reset with ill := true } (.command 0x0000) =
    some ([0x00, 0x20, 0x00, 0x00, 0x40, 0x00, 0x14, 0x00], false) := by decide

/-- V-CRC-7. -/
theorem test_crcClr_clears_overrun : after { eightFed with ovf := true } (.command 0x1000) =
    some ([0x00, 0x20, 0x00, 0x00, 0x00, 0x00, 0x14, 0x00], false) := by decide

/-- P1, cycle 8. -/
theorem test_crcByte_eighth : after sevenFed (.command 0x2099) =
    some ([0x00, 0x38, 0x28, 0x01, 0x00, 0x00, 0x14, 0x00], false) := by decide

/-- V-CRC-5. -/
theorem test_crcByte_ninth : after eightFed (.command 0x2055) =
    some ([0x00, 0xB8, 0x28, 0x01, 0x00, 0x00, 0x14, 0x00], false) := by decide

/-- V-WAIT-2, cycle 0. -/
theorem test_waitReady_sp : after State.reset (.command 0x3100) =
    some ([0x00, 0x20, 0x00, 0x00, 0x01, 0x00, 0x14, 0x00], false) := by decide

/-- V-WAIT-8, cycle 3. -/
theorem test_waitReady_rejected_in_drain : after draining (.command 0x3000) =
    some ([0x00, 0x20, 0x00, 0x00, 0xB5, 0x00, 0x01, 0x01], false) := by decide

/-- V-WAIT-19. -/
theorem test_setTmo_zero : after State.reset (.command 0x4000) =
    some ([0x00, 0x20, 0x00, 0x00, 0x00, 0x00, 0x01, 0x00], false) := by decide

/-- V-WAIT-14, cycle 2. -/
theorem test_setTmo_rejected : after { requesting with rej := true } (.command 0x4005) =
    some ([0x00, 0x20, 0x00, 0x00, 0x23, 0x00, 0x14, 0x00], false) := by decide

/-- V-WAIT-14, cycle 3: the flags are cleared while the request is accepted. -/
theorem test_clrErr_with_handshake : after { requesting with rej := true } { Inputs.command 0x5000 with xreqReady := true } =
    some ([0x00, 0x20, 0x00, 0x00, 0x84, 0x00, 0x14, 0x00], false) := by decide

/-- V-CMD-3, cycle 1. -/
theorem test_illegal_with_handshake : after requesting { Inputs.command 0xFFFF with xreqReady := true } =
    some ([0x00, 0x20, 0x00, 0x00, 0xC4, 0x00, 0x14, 0x00], false) := by decide

/-- V-WAIT-10 to V-WAIT-13, cycle 3: a response and the deadline in one cycle. -/
theorem test_ties : after polling { Inputs.response 0x00 with tick := true } =
      some ([0x00, 0x20, 0x00, 0x00, 0x08, 0x00, 0x02, 0x02], true) ∧
    after polling { Inputs.response 0x01 with tick := true } =
      some ([0x00, 0x20, 0x00, 0x00, 0x10, 0x01, 0x02, 0x02], true) ∧
    after polling { Inputs.errorResponse with tick := true } =
      some ([0x00, 0x20, 0x00, 0x00, 0x18, 0x00, 0x02, 0x02], true) ∧
    after { polling with fst := .spWait } { Inputs.response 0x00 with tick := true } =
      some ([0x00, 0x20, 0x00, 0x00, 0x10, 0x00, 0x02, 0x02], true) := by decide

/-- V-WAIT-9, cycle 4. -/
theorem test_drain_discards_error : after draining .errorResponse =
    some ([0x00, 0x20, 0x00, 0x00, 0x10, 0x00, 0x01, 0x01], false) := by decide

/-- V-WAIT-16, cycle 3: a reset in the middle of a wait. -/
theorem test_reset_mid_wait : after { State.reset with tmo := 7, elap := 1, fst := .spWait } { Inputs.quiet with rst := true } =
    some ([0x00, 0x20, 0x00, 0x00, 0x00, 0x00, 0x14, 0x00], false) := by decide

/-! ## Source text -/

/-- `SET.TMO 0x1F ; c` and `CRC.BYTE 40` (R80). -/
theorem test_asm_text :
    assembleText ['S', 'E', 'T', '.', 'T', 'M', 'O', ' ', '0', 'x', '1', 'F', ' ', ';', ' ', 'c'] = some [0x401F] ∧
    assembleText ['C', 'R', 'C', '.', 'B', 'Y', 'T', 'E', ' ', '4', '0'] = some [0x2028] ∧
    assembleText ['C', 'R', 'C', '.', 'B', 'Y', 'T', 'E', ' ', '2', '5', '6'] = none := by decide

/-- `WAIT.READY sp`, `.word 0x6000`, and an upper-case operand that is no operand (R80). -/
theorem test_asm_keywords :
    assembleText ['W', 'A', 'I', 'T', '.', 'R', 'E', 'A', 'D', 'Y', ' ', 's', 'p'] = some [0x3100] ∧
    assembleText ['.', 'w', 'o', 'r', 'd', ' ', '0', 'x', '6', '0', '0', '0'] = some [0x6000] ∧
    assembleText ['W', 'A', 'I', 'T', '.', 'R', 'E', 'A', 'D', 'Y', ' ', 'S', 'P'] = none := by decide

/-! ## Witnesses: for each statement with hypotheses, what meets them -/

/-- The invariant is about the present, whatever the inputs to come. -/
theorem inv_withInputs {s : State} (h : s.Inv) (ins : List Inputs) : { s with inputs := ins }.Inv :=
  ⟨h.cnt_legal, h.tmo_legal, h.active_before_deadline, h.active_no_result, h.drain_after_timeout, h.empty_unit,
    h.overrun_full, h.ready_not_busy⟩

theorem polling_inv : polling.Inv :=
  ⟨by decide, by decide, by decide, by decide, by decide, by decide, by decide, by decide⟩

theorem draining_inv : draining.Inv :=
  ⟨by decide, by decide, by decide, by decide, by decide, by decide, by decide, by decide⟩

theorem requesting_inv : requesting.Inv :=
  ⟨by decide, by decide, by decide, by decide, by decide, by decide, by decide, by decide⟩

/-- A wait has timed out with its request withdrawn, a verdict is held, and both flags are set. -/
def timedOut : State :=
  { State.reset with cnt := 8, fam := 0x28, ovf := true, tmo := 255, elap := 255, res := .timeout, stat := 0x01,
                     rej := true, ill := true }

theorem timedOut_inv : timedOut.Inv :=
  ⟨by decide, by decide, by decide, by decide, by decide, by decide, by decide, by decide⟩

theorem witness_StepRunsTheDecodedCommand :
    presents (timedOut.present (.command 0x2028)).nextInputs (.crcByte 0x28) ∧
      inLegalRange Config.params (timedOut.present (.command 0x2028)) = true :=
  ⟨⟨rfl, rfl, by decide⟩, by decide⟩

theorem witness_FetchWordIsPresentedNext : decodeTableWord 16 0x40FF = some (.setTmo 0xFF) := by decide

theorem witness_CycleWithoutCommand : Inputs.ticking.rst = false ∧ Inputs.ticking.cmdValid = false ∧
    inLegalRange Config.params polling = true := by decide

/-- The ends of the legal range and the first values beyond: CNT 8 with TMO 1, CNT 9, TMO 0; and a reset. -/
theorem witness_StepStopsOnlyWithoutReset :
    let legal := { State.reset with cnt := 8, tmo := 1 }
    let nine := { State.reset with cnt := 9, inputs := [Inputs.quiet] }
    let zero := { State.reset with tmo := 0, inputs := [Inputs.quiet] }
    let resetting := { State.reset with cnt := 15, tmo := 0, inputs := [{ Inputs.quiet with rst := true }] }
    (legal.cnt.toNat ≤ 8 ∧ legal.tmo ≠ 0) ∧ resetting.nextInputs.rst = true ∧
      (nine.nextInputs.rst = false ∧ ¬(nine.cnt.toNat ≤ 8 ∧ nine.tmo ≠ 0)) ∧
      (zero.nextInputs.rst = false ∧ ¬(zero.cnt.toNat ≤ 8 ∧ zero.tmo ≠ 0)) := by decide

theorem witness_IllegalWordsByCause : presentsIllegal (.command 0x0001) := ⟨rfl, rfl, .dataField, by decide⟩

theorem witness_IllegalWordSetsIllOnly : presentsIllegal (.command 0x7FFF) ∧ inLegalRange Config.params polling = true :=
  ⟨⟨rfl, rfl, .reservedField, by decide⟩, by decide⟩

/-- SET.TMO 5 while FST = RD_WAIT, the example of R104, and WAIT.READY sp in DRAIN. -/
theorem witness_RejectedCommandSetsRejOnly :
    (presents (.command 0x4005) (.setTmo 5) ∧ polling.fst ≠ .idle ∧ inLegalRange Config.params polling = true) ∧
      (presents (.command 0x3100) (.waitReady true) ∧ draining.fst ≠ .idle ∧
        inLegalRange Config.params draining = true) :=
  ⟨⟨⟨rfl, rfl, by decide⟩, by decide, by decide⟩, ⟨rfl, rfl, by decide⟩, by decide, by decide⟩

theorem witness_RejectedExactlyOutsideIdle : polling.rej = false ∧ State.reset.rej = false := by decide

theorem witness_ClrErrClearsRejAndIll :
    (presents (.command 0x5000) .clrErr ∧ inLegalRange Config.params timedOut = true) ∧
      reg Config.params { State.reset with rej := true, ill := true } 4#3 = 0x60 :=
  ⟨⟨⟨rfl, rfl, by decide⟩, by decide⟩, by decide⟩

/-- A state for each clause: CNT 0, 7 and 8, a zero remainder, a cleared unit. -/
theorem witness_CrcByteFeedsOrOverruns : sevenFed.cnt.toNat < 8 ∧ eightFed.cnt = 8 ∧
    (State.reset.crc = 0 ∧ State.reset.cnt.toNat < 8) ∧ State.reset.cnt = 0 ∧ sevenFed.cnt = 7 ∧
    requesting.crcUnit = ⟨0, 0, 0, false⟩ := by decide

theorem witness_CrcUnitHoldsTheBytesFed : polling.Inv ∧ polling.crcUnit = ⟨0x00, 0, 0x00, false⟩ :=
  ⟨polling_inv, by decide⟩

theorem witness_SevenBytesGiveTheCheckByte : [0x28#8, 0xAA#8, 0xBB#8, 0xCC#8, 0x00#8, 0x00#8, 0x00#8].length = 7 := by decide

/-- The state after an outcome, when there is one. -/
def nextState? : Host.Outcome State Fault Refusal → Option State
  | .next t => some t
  | .fault _ => none
  | .refused _ => none

/-- An outcome is a next state when what is read from it says so. -/
theorem exists_next {o : Host.Outcome State Fault Refusal} {α : Type} {f : State → α} {a : α}
    (h : (nextState? o).map f = some a) : ∃ t, o = .next t ∧ f t = a := by
  cases o with
  | next t => exact ⟨t, rfl, by simpa [nextState?] using h⟩
  | fault r => simp [nextState?] at h
  | refused r => simp [nextState?] at h

/-- The identifier of V-SRC-1, with the first and the last bit as the one to flip. -/
theorem witness_SingleBitErrorsAreDetected :
    let bs := [0x28#8, 0xAA#8, 0xBB#8, 0xCC#8, 0x00#8, 0x00#8, 0x00#8, 0x99#8]
    ∃ t, bs.length = 8 ∧ 0 < 64 ∧ 63 < 64 ∧ execAll (checkCommands bs) polling = .next t ∧ t.crc = 0x00 :=
  (exists_next (f := State.crc) (a := 0x00) (by decide +kernel)).imp fun _ h => ⟨rfl, by decide, by decide, h⟩

theorem witness_ZeroRemainderForAnyInitialValue : (0x00 : Byte) ≠ 0xFF := by decide

/-- A state for each verdict: seven bytes, and eight with each outcome; CNT at both sides of 8. -/
theorem witness_VerdictRegister : sevenFed.cnt.toNat < 8 ∧
    (let s := { eightFed with fam := 0x00, crc := 0x5E }; 8 ≤ s.cnt.toNat ∧ s.fam = 0x00 ∧ s.crc ≠ 0x00 ∧ s.cnt = 8) ∧
    (let s := { eightFed with crc := 0xCD }; 8 ≤ s.cnt.toNat ∧ s.fam ≠ 0x00 ∧ s.crc ≠ 0x00) ∧
    (8 ≤ eightFed.cnt.toNat ∧ eightFed.fam ≠ 0x00 ∧ eightFed.crc = 0x00) := by decide

theorem witness_WaitReadyStartsOrIsRejected : draining.fst ≠ .idle ∧ timedOut.fst = .idle ∧
    presents (timedOut.present (.command 0x3000)).nextInputs (.waitReady false) ∧
    inLegalRange Config.params (timedOut.present (.command 0x3000)) = true :=
  ⟨by decide, by decide, ⟨rfl, rfl, by decide⟩, by decide⟩

theorem witness_SetTmoStoresALegalDeadline : polling.fst ≠ .idle ∧ timedOut.fst = .idle := by decide

/-- A tick that hits the deadline in an active wait, and a tick in IDLE without a command. -/
theorem witness_TicksCountInActiveWaitsOnly :
    (let s := polling.present .ticking;
      s.nextInputs.rst = false ∧ inLegalRange Config.params s = true ∧ s.fst.isActive = true ∧
        deadlineHit s s.nextInputs = true) ∧
    (let s := timedOut.present .ticking;
      s.nextInputs.rst = false ∧ inLegalRange Config.params s = true ∧ s.fst.isActive = false ∧
        ∀ sp, ¬ presents s.nextInputs (.waitReady sp)) :=
  ⟨by decide, rfl, by decide, rfl, fun _ h => Bool.noConfusion h.2.1⟩

/-- Both request states, with each of the four inputs, at the boundary of the deadline. -/
theorem witness_RequestStatesByHandshakeAndDeadline :
    (∀ f ∈ [Fst.spReq, .rdReq], ∀ ready ∈ [true, false], ∀ tick ∈ [true, false],
      let s := { polling with fst := f, inputs := [{ Inputs.quiet with xreqReady := ready, tick := tick }] }
      (s.fst = .spReq ∨ s.fst = .rdReq) ∧ s.nextInputs.rst = false ∧ inLegalRange Config.params s = true ∧
        s.nextInputs.xreqReady = ready ∧ deadlineHit s s.nextInputs = tick) := by decide

/-- Each of the five cases of SP_WAIT, at the boundary of the deadline. -/
theorem witness_SetPointerWaitByResponseAndDeadline :
    ∀ valid ∈ [true, false], ∀ err ∈ [true, false], ∀ tick ∈ [true, false],
      let s := { polling with
        fst := .spWait, inputs := [{ Inputs.quiet with xrspValid := valid, xrspErr := err, tick := tick }] }
      s.fst = .spWait ∧ s.nextInputs.rst = false ∧ inLegalRange Config.params s = true ∧
        s.nextInputs.xrspValid = valid ∧ s.nextInputs.xrspErr = err ∧ deadlineHit s s.nextInputs = tick := by decide

/-- Each of the cases of RD_WAIT, at the boundary of the deadline, with the status bytes 0xFE and 0x01. -/
theorem witness_PollWaitByResponseBusyAndDeadline :
    ∀ valid ∈ [true, false], ∀ err ∈ [true, false], ∀ tick ∈ [true, false], ∀ d ∈ [0xFE#8, 0x01#8],
      let s := { polling with
        inputs := [{ Inputs.quiet with xrspValid := valid, xrspErr := err, xrspData := d, tick := tick }] }
      s.fst = .rdWait ∧ s.nextInputs.rst = false ∧ inLegalRange Config.params s = true ∧
        s.nextInputs.xrspValid = valid ∧ s.nextInputs.xrspErr = err ∧
        s.nextInputs.xrspData.getLsbD 0 = decide (d = 0x01) ∧ deadlineHit s s.nextInputs = tick := by decide

/-- A drain that is answered while WAIT.READY is presented. -/
theorem witness_DrainDiscardsTheResponse :
    let s := draining.present { Inputs.command 0x3000 with xrspValid := true }
    s.Inv ∧ s.fst = .drain ∧ s.nextInputs.rst = false ∧ presents s.nextInputs (.waitReady false) :=
  ⟨inv_withInputs draining_inv _, rfl, rfl, rfl, rfl, by decide⟩

theorem witness_IdleFsmWritesNothing :
    let s := timedOut.present { Inputs.response 0x55 with tick := true, xreqReady := true }
    s.fst = .idle ∧ s.nextInputs.rst = false ∧ (∀ sp, ¬ presents s.nextInputs (.waitReady sp)) ∧
      inLegalRange Config.params s = true :=
  ⟨rfl, rfl, fun _ h => Bool.noConfusion h.2.1, by decide⟩

theorem witness_StrayResponsesAreIgnored :
    requesting.fst ≠ .spWait ∧ requesting.fst ≠ .rdWait ∧ requesting.fst ≠ .drain := by decide

/-- A poll answered READY in the cycle of the deadline (V-WAIT-10). -/
def readyAtDeadline : State := polling.present { Inputs.response 0x00 with tick := true }

/-- The same cycle with an error response (V-WAIT-12). -/
def errorAtDeadline : State := polling.present { Inputs.errorResponse with tick := true }

/-- The same cycle without a response. -/
def silentAtDeadline : State := polling.present .ticking

/-- The cycle of each result completes, gives that result and pulses `done`. -/
theorem witness_EachResultHasItsCause :
    (readyAtDeadline.Inv ∧ (nextState? (step readyAtDeadline)).map (fun t => (t.out.done, t.res)) = some (true, .ready)) ∧
    (errorAtDeadline.Inv ∧ (nextState? (step errorAtDeadline)).map (fun t => (t.out.done, t.res)) = some (true, .xerr)) ∧
    (silentAtDeadline.Inv ∧
      (nextState? (step silentAtDeadline)).map (fun t => (t.out.done, t.res)) = some (true, .timeout)) :=
  ⟨⟨inv_withInputs polling_inv _, by decide⟩, ⟨inv_withInputs polling_inv _, by decide⟩,
    inv_withInputs polling_inv _, by decide⟩

/-- A cycle that completes, which is all that `DoneExactlyWhenTheWaitEnds`, `OutputPorts`, `RegisterReadView`,
`StickyFlagsSetAndCleared`, `TmoChangesOnlyInIdle` and `StatHoldsTheLastStatusRead` ask for; one that pulses `done`. -/
theorem witness_completed_cycle : ∃ t, step readyAtDeadline = .next t ∧ t.out.done = true ∧ t.stat = 0x00 :=
  (exists_next (f := fun t => (t.out.done, t.stat)) (a := (true, 0x00)) (by decide)).imp fun _ h =>
    ⟨h.1, (Prod.mk.inj h.2).1, (Prod.mk.inj h.2).2⟩

/-- TMO does change, in IDLE, and only to a legal value. -/
theorem witness_TmoChangesOnlyInIdle :
    (nextState? (step (timedOut.present (.command 0x4000)))).map (fun t => (timedOut.tmo, t.tmo)) = some (255, 1) := by
  decide

theorem witness_ErrorRecords : eightFed.cnt.toNat ≤ 8 ∧ State.reset.cnt.toNat ≤ 8 := by decide

theorem witness_ResetLoadsTheResetState :
    (timedOut.present { Inputs.command 0x3100 with rst := true, tick := true }).nextInputs.rst = true := by decide

/-- A cycle without reset in which an outstanding read is answered, and one in which a request is accepted. -/
theorem witness_FsmMovesOnlyAlongItsTransitions :
    (readyAtDeadline.nextInputs.rst = false ∧ readyAtDeadline.fst.isOutstanding = true ∧
      (nextState? (step readyAtDeadline)).map (fun t => t.fst.isOutstanding) = some false) ∧
    (let s := requesting.present .ready;
      s.nextInputs.rst = false ∧ s.fst.isOutstanding = false ∧
        (nextState? (step s)).map (fun t => t.fst.isOutstanding) = some true) := by decide

/-- A consumed command that writes ELAP, FST and RES. -/
theorem witness_WritesOfOneCycleNeverCollide :
    (nextState? (consume (.command 0x3100) timedOut)).map (fun t => (t.elap, t.fst, t.res)) =
      some (0, .spReq, .none) := by decide

/-- Two states with the same wait FSM and different CRC units, and two cycles that differ in the command. -/
theorem witness_SubUnitsShareNoState :
    (polling.waitUnit = { polling with crc := 0x99, cnt := 7, fam := 0x28 }.waitUnit ∧
      (∀ sp, ¬ presents (.response 0x01) (.waitReady sp)) ∧ (∀ d, ¬ presents (.response 0x01) (.setTmo d)) ∧
      (∀ sp, ¬ presents { Inputs.response 0x01 with cmdValid := true, cmdWord := 0x2099, rdAddr := 3 } (.waitReady sp)) ∧
      (∀ d, ¬ presents { Inputs.response 0x01 with cmdValid := true, cmdWord := 0x2099, rdAddr := 3 } (.setTmo d)) ∧
      (nextState? (step (polling.present (.response 0x01)))).isSome = true) ∧
    (polling.crcUnit = State.reset.crcUnit ∧ (Inputs.command 0x2028).cmdWord = 0x2028 ∧
      (nextState? (step (polling.present (.command 0x2028)))).isSome = true) :=
  ⟨⟨rfl, fun _ h => Bool.noConfusion h.2.1, fun _ h => Bool.noConfusion h.2.1,
      fun _ h => Instr.noConfusion (presents_unique h ⟨rfl, rfl, test_decode_crcByte⟩),
      fun _ h => Instr.noConfusion (presents_unique h ⟨rfl, rfl, test_decode_crcByte⟩), by decide⟩,
    rfl, rfl, by decide⟩

theorem witness_EveryCycleKeepsTheInvariant : silentAtDeadline.Inv ∧ (nextState? (step silentAtDeadline)).isSome = true :=
  ⟨inv_withInputs polling_inv _, by decide⟩

/-- A wait accepted after SET.TMO 1, then a tick in its first cycle; and a request that nothing answers. -/
theorem witness_EveryWaitEndsByItsDeadline :
    (let s := { timedOut with inputs := [Inputs.command 0x3100, .ticking], tmo := 1, elap := 1 };
      s.Inv ∧ s.fst = .idle ∧ presents s.nextInputs (.waitReady true) ∧
        (let s' := { s with fst := .spReq, elap := 0, res := .none, inputs := [Inputs.ticking] };
          noReset (upcoming 1 s') = true ∧ s'.tmo.toNat ≤ ticksIn (upcoming 1 s'))) ∧
    (let s := { requesting with inputs := [.quiet, .response 0x00] };
      s.Inv ∧ s.fst = .rdReq ∧ noReset (upcoming 2 s) = true ∧
        ∀ i ∈ upcoming 2 s, i.tick = false ∧ i.xreqReady = false) :=
  ⟨⟨⟨by decide, by decide, by decide, by decide, by decide, by decide, by decide, by decide⟩, rfl,
      ⟨rfl, rfl, by decide⟩, by decide, by decide⟩,
    inv_withInputs requesting_inv _, rfl, by decide, by decide⟩

theorem witness_DrainLastsUntilAnswered :
    let s := { draining with inputs := [.ticking, .command 0x3000, .command 0x5000] }
    s.Inv ∧ s.fst = .drain ∧ noReset (upcoming 3 s) = true ∧ ∀ i ∈ upcoming 3 s, i.xrspValid = false :=
  ⟨inv_withInputs draining_inv _, rfl, by decide, by decide⟩

theorem witness_ShortestWaits : (timedOut.Inv ∧ timedOut.fst = .idle ∧ (0x18 : Byte).getLsbD 0 = false) ∧
    (requesting.Inv ∧ requesting.fst = .rdReq ∧ (0x19 : Byte).getLsbD 0 = true) :=
  ⟨⟨timedOut_inv, rfl, by decide⟩, requesting_inv, rfl, by decide⟩

/-- SET.TMO 2, a wait that its second tick ends, SET.TMO 1: TMO is 1 and ELAP is 2 (log 5). -/
theorem test_elap_above_tmo :
    (nextState? (runSteps 5 { State.reset with
      inputs := [.command 0x4002, .command 0x3000, .ticking, .ticking, .command 0x4001] })).map
        (fun t => (t.fst, t.tmo, t.elap)) = some (.idle, 1, 2) := by decide

theorem witness_ElapMayExceedTmoOnlyInIdle : draining.Inv ∧ draining.fst ≠ .idle ∧ polling.Inv ∧ polling.fst ≠ .idle :=
  ⟨draining_inv, by decide, polling_inv, by decide⟩

theorem witness_OperandsOutOfRangeAreAssemblyErrors : 255 ≤ 255 ∧ 255 < 256 := by decide

end Sys2Proof.Tests
end

section
/-! The two sub-units as functions of their own elements (20_memory.md R63, 40_cycle.md R111): what each part of a cycle
makes of one sub-unit is settled by that sub-unit before it. -/

namespace Sys2Proof.Machine

/-! ## Equal sub-units, element by element -/

theorem crcUnit_eq_iff {s s' : State} : s.crcUnit = s'.crcUnit ↔
    s.crc = s'.crc ∧ s.cnt = s'.cnt ∧ s.fam = s'.fam ∧ s.ovf = s'.ovf := by
  simp [State.crcUnit]

theorem waitUnit_eq_iff {s s' : State} : s.waitUnit = s'.waitUnit ↔
    s.tmo = s'.tmo ∧ s.elap = s'.elap ∧ s.fst = s'.fst ∧ s.res = s'.res ∧ s.stat = s'.stat := by
  simp [State.waitUnit]

/-! ## Reset -/

@[simp] theorem crcUnit_loadReset (P : Params) (s : State) :
    (s.loadReset P).crcUnit = ⟨P.crcInit, 0, 0, false⟩ := rfl

@[simp] theorem waitUnit_loadReset (P : Params) (s : State) :
    (s.loadReset P).waitUnit = ⟨P.tmoReset, 0, .idle, .none, 0⟩ := rfl

/-! ## The wait FSM -/

/-- The wait FSM's own step reads the wait FSM alone of the state. -/
theorem fsmStep_congr (P : Params) {s s' : State} (inp : Inputs) (h : s.waitUnit = s'.waitUnit) :
    fsmStep P s inp = fsmStep P s' inp := by
  obtain ⟨htmo, helap, hfst, -, -⟩ := waitUnit_eq_iff.mp h
  have htick : tickWrite s inp = tickWrite s' inp := by simp [tickWrite, countsTick, helap, hfst]
  have hhit : deadlineHit s inp = deadlineHit s' inp := by simp [deadlineHit, countsTick, htmo, helap, hfst]
  simp only [fsmStep, htick, hhit, hfst]

/-- The wait FSM's own step reads neither the command port nor the read address. -/
theorem fsmStep_ignores_command (P : Params) (s : State) (inp : Inputs) (v : Bool) (w : Word) (a : BitVec 3) :
    fsmStep P s { inp with cmdValid := v, cmdWord := w, rdAddr := a } = fsmStep P s inp := rfl

theorem waitUnit_applyFsm_congr {s s' : State} (w : FsmWrites) (h : s.waitUnit = s'.waitUnit) :
    (s.applyFsm w).waitUnit = (s'.applyFsm w).waitUnit := by
  obtain ⟨htmo, helap, hfst, hres, hstat⟩ := waitUnit_eq_iff.mp h
  simp [State.waitUnit, State.applyFsm, htmo, helap, hfst, hres, hstat]

/-- Only WAIT.READY and SET.TMO write the wait FSM's elements. -/
theorem consume_keeps_waitUnit {inp : Inputs} {s t : State} (hr : inp.rst = false)
    (hw : ∀ sp, ¬ presents inp (.waitReady sp)) (ht : ∀ d, ¬ presents inp (.setTmo d))
    (h : consume inp s = .next t) : t.waitUnit = s.waitUnit := by
  obtain ⟨u, hu, hc⟩ := consume_cases inp s
  obtain rfl : u = t := by simpa [hu] using h
  rcases hc with ⟨rfl, -⟩ | ⟨-, -, rfl⟩ | ⟨-, -, rfl⟩ | ⟨-, -, rfl⟩ | ⟨d, -, -, -, rfl⟩ | ⟨d, -, -, -, rfl⟩ |
    ⟨sp, hv, hd, -, -⟩ | ⟨d, hv, hd, -, -⟩ | ⟨c, -, -, -, -, rfl⟩
  exacts [rfl, rfl, rfl, rfl, rfl, rfl, absurd ⟨hr, hv, hd⟩ (hw sp), absurd ⟨hr, hv, hd⟩ (ht d), rfl]

/-- A completed cycle without WAIT.READY and SET.TMO, as the wait FSM sees it: reset, or the FSM's own writes. -/
theorem step_waitUnit {s t : State} {inp : Inputs} (hin : s.nextInputs = inp)
    (hw : ∀ sp, ¬ presents inp (.waitReady sp)) (ht : ∀ d, ¬ presents inp (.setTmo d)) (h : step s = .next t) :
    t.waitUnit = (if inp.rst then s.loadReset Config.params
      else s.applyFsm (fsmStep Config.params s inp).1).waitUnit := by
  subst hin
  rcases step_cases h with ⟨hr, rfl⟩ | ⟨hr, -, u, hu, rfl⟩
  · simp [hr]
  · simpa [hr] using waitUnit_applyFsm_congr _ (consume_keeps_waitUnit hr hw ht hu)

theorem step_out {s t : State} (h : step s = .next t) : t.out = outputs Config.params s s.nextInputs := by
  rcases step_cases h with ⟨-, rfl⟩ | ⟨-, -, u, -, rfl⟩ <;> rfl

/-! ## The CRC unit -/

theorem crcUnit_acceptInIdle {s accepted : State} (h : accepted.crcUnit = s.crcUnit) :
    (acceptInIdle s accepted).crcUnit = s.crcUnit := by
  unfold acceptInIdle
  split
  · exact h
  · rfl

theorem exec_crcUnit_congr {c : Instr} {s s' t t' : State} (hu : s.crcUnit = s'.crcUnit)
    (h : exec c s = .next t) (h' : exec c s' = .next t') : t.crcUnit = t'.crcUnit := by
  cases c with
  | nop | clrErr =>
    cases h; cases h'
    exact hu
  | crcClr =>
    cases h; cases h'
    rfl
  | waitReady sp =>
    cases h; cases h'
    rw [crcUnit_acceptInIdle (crcUnit_startWait ..), crcUnit_acceptInIdle (crcUnit_startWait ..), hu]
  | setTmo d =>
    cases h; cases h'
    rw [crcUnit_acceptInIdle (crcUnit_writeTmo ..), crcUnit_acceptInIdle (crcUnit_writeTmo ..), hu]
  | crcByte d =>
    obtain ⟨hcrc, hcnt, hfam, hovf⟩ := crcUnit_eq_iff.mp hu
    by_cases hroom : s.cnt.toNat < 8
    · rw [exec_crcByte_room hroom] at h
      rw [exec_crcByte_room (hcnt ▸ hroom)] at h'
      cases h; cases h'
      simp [State.crcUnit, hcrc, hcnt, hfam, hovf]
    · rw [exec_crcByte_full hroom] at h
      rw [exec_crcByte_full (hcnt ▸ hroom)] at h'
      cases h; cases h'
      simp [State.crcUnit, hcrc, hcnt, hfam]

/-- What a cycle's command makes of the CRC unit is settled by the CRC unit and the command port. -/
theorem consume_crcUnit_congr {inp inp' : Inputs} {s s' t t' : State} (hu : s.crcUnit = s'.crcUnit)
    (hv : inp.cmdValid = inp'.cmdValid) (hword : inp.cmdWord = inp'.cmdWord)
    (h : consume inp s = .next t) (h' : consume inp' s' = .next t') : t.crcUnit = t'.crcUnit := by
  cases hc : inp.cmdValid with
  | false =>
    rw [consume_noCommand s hc] at h
    rw [consume_noCommand s' (hv ▸ hc)] at h'
    cases h; cases h'
    exact hu
  | true =>
    cases hd : decodeWord inp.cmdWord with
    | illegal why =>
      rw [consume_illegal s hc hd] at h
      rw [consume_illegal s' (hv ▸ hc) (hword ▸ hd)] at h'
      cases h; cases h'
      exact hu
    | command c =>
      rw [consume_command s hc hd] at h
      rw [consume_command s' (hv ▸ hc) (hword ▸ hd)] at h'
      exact exec_crcUnit_congr hu h h'

/-- A completed cycle, as the CRC unit sees it: reset, or the command alone. -/
theorem step_crcUnit {s t : State} (h : step s = .next t) :
    (s.nextInputs.rst = true ∧ t.crcUnit = (s.loadReset Config.params).crcUnit) ∨
    (s.nextInputs.rst = false ∧ ∃ u, consume s.nextInputs s = .next u ∧ t.crcUnit = u.crcUnit) := by
  rcases step_cases h with ⟨hr, rfl⟩ | ⟨hr, -, u, hu, rfl⟩
  · exact .inl ⟨hr, rfl⟩
  · exact .inr ⟨hr, u, hu, rfl⟩

/-! ## R63, R111 -/

/-- The wait FSM's half of R111: the next elements and `done` in two runs that differ in the rest. -/
theorem waitFsm_independent {s t s' t' : State} {inp : Inputs} {v : Bool} {w : Word} {a : BitVec 3}
    (hu : s.waitUnit = s'.waitUnit)
    (hw : ∀ sp, ¬ presents inp (.waitReady sp)) (ht : ∀ d, ¬ presents inp (.setTmo d))
    (hw' : ∀ sp, ¬ presents { inp with cmdValid := v, cmdWord := w, rdAddr := a } (.waitReady sp))
    (ht' : ∀ d, ¬ presents { inp with cmdValid := v, cmdWord := w, rdAddr := a } (.setTmo d))
    (h : step (s.present inp) = .next t)
    (h' : step (s'.present { inp with cmdValid := v, cmdWord := w, rdAddr := a }) = .next t') :
    t.waitUnit = t'.waitUnit ∧ t.out.done = t'.out.done := by
  have hp : (s.present inp).waitUnit =
      (s'.present { inp with cmdValid := v, cmdWord := w, rdAddr := a }).waitUnit := hu
  have hfsm := fsmStep_congr Config.params inp hp
  constructor
  · rw [step_waitUnit (nextInputs_present ..) hw ht h, step_waitUnit (nextInputs_present ..) hw' ht' h',
      fsmStep_ignores_command, hfsm]
    by_cases hr : inp.rst = true
    · simp only [if_pos hr, waitUnit_loadReset]
    · simp only [if_neg hr]
      exact waitUnit_applyFsm_congr _ hp
  · rw [step_out h, step_out h']
    simp only [nextInputs_present, outputs_done, fsmStep_ignores_command, hfsm]

/-- The CRC unit's half of R111. -/
theorem crcUnit_independent {s t s' t' : State} {inp inp' : Inputs} (hu : s.crcUnit = s'.crcUnit)
    (hrst : inp.rst = inp'.rst) (hv : inp.cmdValid = inp'.cmdValid) (hword : inp.cmdWord = inp'.cmdWord)
    (h : step (s.present inp) = .next t) (h' : step (s'.present inp') = .next t') : t.crcUnit = t'.crcUnit := by
  rcases step_crcUnit h with ⟨hr, ht⟩ | ⟨hr, u, hc, ht⟩ <;>
    rcases step_crcUnit h' with ⟨hr', ht'⟩ | ⟨hr', u', hc', ht'⟩ <;>
    simp only [nextInputs_present] at hr hr'
  · rw [ht, ht', crcUnit_loadReset, crcUnit_loadReset]
  · simp [hrst, hr'] at hr
  · simp [hrst, hr'] at hr
  · rw [ht, ht']
    exact consume_crcUnit_congr (by simpa using hu) hv hword hc hc'

/-- Settles O47: each sub-unit's next elements are a function of that sub-unit, reset and what is its own of the
inputs. -/
theorem subUnitsShareNoState : Obligations.SubUnitsShareNoState :=
  ⟨fun _ _ _ _ _ _ _ _ => waitFsm_independent, fun _ _ _ _ _ _ => crcUnit_independent⟩

end Sys2Proof.Machine
end

section
/-! What a cycle presents, and what its command and the wait FSM make of the state, in the form the statements about
single elements use it (10_state.md R26 to R31). -/

namespace Sys2Proof.Machine

/-! ## What a cycle presents -/

theorem presents_iff_eq {inp : Inputs} {c c' : Instr} (h : presents inp c) : presents inp c' ↔ c' = c :=
  ⟨fun h' => presents_unique h' h, fun e => e ▸ h⟩

theorem not_presents_of_noCommand {inp : Inputs} (hv : inp.cmdValid = false) (c : Instr) : ¬ presents inp c := by
  rintro ⟨-, hv', -⟩
  simp [hv] at hv'

theorem not_presentsIllegal_of_noCommand {inp : Inputs} (hv : inp.cmdValid = false) : ¬ presentsIllegal inp := by
  rintro ⟨-, hv', -⟩
  simp [hv] at hv'

theorem not_presents_of_illegal {inp : Inputs} (h : presentsIllegal inp) (c : Instr) : ¬ presents inp c := by
  obtain ⟨-, -, why, hd⟩ := h
  rintro ⟨-, -, hd'⟩
  simp [hd] at hd'

/-- A cycle without reset presents nothing, an illegal word, or a command. -/
theorem commandPort_cases {inp : Inputs} (hr : inp.rst = false) :
    inp.cmdValid = false ∨ presentsIllegal inp ∨ ∃ c, presents inp c := by
  cases hv : inp.cmdValid with
  | false => exact .inl rfl
  | true =>
    cases hd : decodeWord inp.cmdWord with
    | illegal why => exact .inr (.inl ⟨hr, hv, why, hd⟩)
    | command c => exact .inr (.inr ⟨c, hr, hv, hd⟩)

theorem consume_presents {inp : Inputs} {c : Instr} (s : State) (h : presents inp c) : consume inp s = exec c s := by
  obtain ⟨-, hv, hd⟩ := h
  exact consume_command s hv hd

theorem consume_presentsIllegal {inp : Inputs} (s : State) (h : presentsIllegal inp) :
    consume inp s = .next s.flagIllegal := by
  obtain ⟨-, hv, why, hd⟩ := h
  exact consume_illegal s hv hd

/-! ## What the command makes of the state -/

/-- `consume_cases` as a rule: what holds of every result a command can give holds after the command. -/
theorem consume_elim {Q : State → Prop} {inp : Inputs} {s t : State} (h : consume inp s = .next t)
    (same : Q s) (illegal : Q s.flagIllegal) (clrErr : Q s.clearErrors) (crcClr : Q (s.clearCrc Config.params))
    (takeByte : ∀ d, s.cnt.toNat < 8 → Q (s.takeByte (crcNext Config.params s.crc d) d))
    (overrun : ¬ s.cnt.toNat < 8 → Q s.overrun)
    (startWait : ∀ sp, s.fst = .idle → Q (s.startWait (waitStart sp)))
    (writeTmo : ∀ d, inp.cmdValid = true → decodeWord inp.cmdWord = .command (.setTmo d) → s.fst = .idle →
      Q (s.writeTmo (legalTmo d)))
    (reject : s.fst ≠ .idle → Q s.reject) : Q t := by
  obtain ⟨u, hu, hc⟩ := consume_cases inp s
  obtain rfl : u = t := by simpa [hu] using h
  rcases hc with ⟨rfl, -⟩ | ⟨-, -, rfl⟩ | ⟨-, -, rfl⟩ | ⟨-, -, rfl⟩ | ⟨d, -, -, hn, rfl⟩ | ⟨d, -, -, hn, rfl⟩ |
    ⟨sp, -, -, hi, rfl⟩ | ⟨d, hv, hd, hi, rfl⟩ | ⟨c, -, -, -, hi, rfl⟩
  exacts [same, illegal, clrErr, crcClr, takeByte d hn, overrun hn, startWait sp hi, writeTmo d hv hd hi, reject hi]

/-- No command writes STAT (R105). -/
theorem consume_stat {inp : Inputs} {s t : State} (h : consume inp s = .next t) : t.stat = s.stat := by
  apply consume_elim (Q := fun u => u.stat = s.stat) h <;> simp

theorem legalTmo_ne_zero (d : Byte) : legalTmo d ≠ 0 := by
  unfold legalTmo
  split
  · decide
  · assumption

/-- Only SET.TMO in IDLE writes TMO (R154). -/
theorem consume_tmo {inp : Inputs} {s t : State} (h : consume inp s = .next t) :
    t.tmo = s.tmo ∨ (s.fst = .idle ∧ ∃ d, inp.cmdValid = true ∧ decodeWord inp.cmdWord = .command (.setTmo d) ∧
      t.tmo = legalTmo d) := by
  apply consume_elim (Q := fun u => u.tmo = s.tmo ∨ (s.fst = .idle ∧ ∃ d, inp.cmdValid = true ∧
    decodeWord inp.cmdWord = .command (.setTmo d) ∧ u.tmo = legalTmo d)) h
  case writeTmo => exact fun d hv hd hi => .inr ⟨hi, d, hv, hd, rfl⟩
  all_goals simp

theorem waitStart_eq (sp : Bool) : waitStart sp = .spReq ∨ waitStart sp = .rdReq := by
  cases sp
  · exact .inr rfl
  · exact .inl rfl

/-- In IDLE a command leaves FST or starts a wait at a request (R152). -/
theorem consume_fst_of_idle {inp : Inputs} {s t : State} (h : consume inp s = .next t) (hi : s.fst = .idle) :
    t.fst = .idle ∨ t.fst = .spReq ∨ t.fst = .rdReq := by
  apply consume_elim (Q := fun u => u.fst = .idle ∨ u.fst = .spReq ∨ u.fst = .rdReq) h
  case startWait => exact fun sp _ => .inr (waitStart_eq sp)
  all_goals simp [hi]

/-! ## What the wait FSM writes -/

@[simp] theorem requestStep_stat (e : Option Byte) (hit accepted : Bool) (w : Fst) :
    (requestStep e hit accepted w).1.stat = none := by
  cases hit <;> cases accepted <;> rfl

theorem requestStep_fst (e : Option Byte) (hit accepted : Bool) (w f : Fst) :
    (requestStep e hit accepted w).1.fst.getD f =
      if accepted then (if hit then .drain else w) else (if hit then .idle else f) := by
  cases hit <;> cases accepted <;> rfl

/-- The FSM writes STAT exactly at a successful response to the status read (R169). -/
theorem fsmStep_stat (P : Params) (s : State) (inp : Inputs) : (fsmStep P s inp).1.stat =
    if s.fst = .rdWait ∧ inp.xrspValid = true ∧ inp.xrspErr = false then some inp.xrspData else none := by
  cases hf : s.fst with
  | idle => simp [fsmStep_idle P inp hf]
  | drain => simp [fsmStep_drain P inp hf]
  | spReq => simp [fsmStep_spReq P inp hf]
  | rdReq => simp [fsmStep_rdReq P inp hf]
  | spWait =>
    cases hh : deadlineHit s inp <;> cases hv : inp.xrspValid <;> cases he : inp.xrspErr <;>
      simp [fsmStep, hf, hh, hv, he, endWait, goOn]
  | rdWait =>
    cases hh : deadlineHit s inp <;> cases hv : inp.xrspValid <;> cases he : inp.xrspErr <;>
      cases hb : isBusy P inp.xrspData <;> simp [fsmStep, hf, hh, hv, he, hb, endWait, goOn]

/-- `done` is the FSM's mark of a result written (R172). -/
theorem fsmStep_done_iff (P : Params) (s : State) (inp : Inputs) :
    (fsmStep P s inp).2 = true ↔ ∃ r, (fsmStep P s inp).1.res = some r ∧ r ≠ .none := by
  rcases fsmStep_cases P s inp with ⟨-, hd, hw | ⟨-, -, hw⟩⟩ | ⟨-, -, f, st, hw, -, -⟩ | ⟨-, -, g, st, hw, -, -⟩ |
    ⟨-, -, -, -, hw⟩ | ⟨-, -, -, hw⟩
  · simp [hd, hw]
  · simp [hd, hw]
  all_goals simp [hw]

/-- FST after the FSM's own writes. -/
def fsmNext (P : Params) (s : State) (inp : Inputs) : Fst := (fsmStep P s inp).1.fst.getD s.fst

theorem fsmNext_request (P : Params) {s : State} {w : Fst} (inp : Inputs)
    (h : s.fst = .spReq ∧ w = .spWait ∨ s.fst = .rdReq ∧ w = .rdWait) : fsmNext P s inp =
      if inp.xreqReady then (if deadlineHit s inp then .drain else w)
      else (if deadlineHit s inp then .idle else s.fst) := by
  rcases h with ⟨hf, rfl⟩ | ⟨hf, rfl⟩
  · rw [fsmNext, fsmStep_spReq P inp hf, requestStep_fst]
  · rw [fsmNext, fsmStep_rdReq P inp hf, requestStep_fst]

/-- While a response is awaited, no response keeps the transaction outstanding, and a response ends it (R168, R169). -/
theorem fsmNext_wait (P : Params) {s : State} (inp : Inputs) (h : s.fst = .spWait ∨ s.fst = .rdWait) :
    (inp.xrspValid = true ∧ (fsmNext P s inp = .idle ∨ fsmNext P s inp = .rdReq)) ∨
    (inp.xrspValid = false ∧ (fsmNext P s inp = .drain ∨ fsmNext P s inp = s.fst)) := by
  rcases h with hf | hf
  · cases hh : deadlineHit s inp <;> cases hv : inp.xrspValid <;> cases he : inp.xrspErr <;>
      simp [fsmNext, fsmStep, hf, hh, hv, he, endWait, goOn]
  · cases hh : deadlineHit s inp <;> cases hv : inp.xrspValid <;> cases he : inp.xrspErr <;>
      cases hb : isBusy P inp.xrspData <;> simp [fsmNext, fsmStep, hf, hh, hv, he, hb, endWait, goOn]

theorem fsmNext_drain (P : Params) {s : State} (inp : Inputs) (h : s.fst = .drain) :
    fsmNext P s inp = if inp.xrspValid then .idle else .drain := by
  rw [fsmNext, fsmStep_drain P inp h, h]
  cases inp.xrspValid <;> rfl

/-! ## The whole cycle -/

/-- The FSM's writes on the state after the command: none in IDLE; elsewhere those of that state's own FSM step, since
the command has left the wait FSM alone. -/
theorem fsmStep_after_consume (P : Params) {inp : Inputs} {s t : State} (h : consume inp s = .next t) :
    (s.fst = .idle ∧ t.applyFsm (fsmStep P s inp).1 = t) ∨ (s.fst ≠ .idle ∧ fsmStep P s inp = fsmStep P t inp) := by
  by_cases hi : s.fst = .idle
  · rw [fsmStep_idle P inp hi]
    exact .inl ⟨hi, rfl⟩
  · exact .inr ⟨hi, fsmStep_congr P inp (waitUnit_eq_iff.mpr (consume_keeps_wait h hi)).symm⟩

/-- FST in the next state of a cycle without reset. -/
theorem step_fst {s t : State} (h : step s = .next t) (hr : s.nextInputs.rst = false) :
    (s.fst = .idle ∧ (t.fst = .idle ∨ t.fst = .spReq ∨ t.fst = .rdReq)) ∨
    (s.fst ≠ .idle ∧ t.fst = fsmNext Config.params s s.nextInputs) := by
  rcases step_cases h with ⟨hr', -⟩ | ⟨-, -, u, hu, rfl⟩
  · simp [hr] at hr'
  · by_cases hi : s.fst = .idle
    · refine .inl ⟨hi, ?_⟩
      simpa [fsmStep_idle Config.params s.nextInputs hi] using consume_fst_of_idle hu hi
    · obtain ⟨-, -, hf, -, -⟩ := consume_keeps_wait hu hi
      exact .inr ⟨hi, by simp [fsmNext, hf]⟩

end Sys2Proof.Machine
end

section
/-! The invariant of runs from reset, kept by every part of a cycle (10_state.md R22, R26 to R31). -/

namespace Sys2Proof.Machine

/-! ## Reset and the commands -/

/-- The invariant speaks of the two sub-units alone. -/
theorem inv_congr {s t : State} (hs : s.Inv) (hc : t.crcUnit = s.crcUnit) (hw : t.waitUnit = s.waitUnit) : t.Inv := by
  obtain ⟨hcrc, hcnt, hfam, hovf⟩ := crcUnit_eq_iff.mp hc
  obtain ⟨htmo, helap, hfst, hres, hstat⟩ := waitUnit_eq_iff.mp hw
  constructor
  · rw [hcnt]; exact hs.cnt_legal
  · rw [htmo]; exact hs.tmo_legal
  · rw [hfst, helap, htmo]; exact hs.active_before_deadline
  · rw [hfst, hres]; exact hs.active_no_result
  · rw [hfst, hres, helap, htmo]; exact hs.drain_after_timeout
  · rw [hcnt, hfam, hcrc]; exact hs.empty_unit
  · rw [hovf, hcnt]; exact hs.overrun_full
  · rw [hres, hstat]; exact hs.ready_not_busy

theorem inv_loadReset (s : State) : (s.loadReset Config.params).Inv :=
  ⟨by simp, by simp, nofun, nofun, nofun, fun _ => ⟨rfl, rfl⟩, nofun, nofun⟩

theorem inv_clearCrc {s : State} (hs : s.Inv) : (s.clearCrc Config.params).Inv :=
  { hs with cnt_legal := by simp, empty_unit := fun _ => ⟨rfl, rfl⟩, overrun_full := nofun }

theorem inv_takeByte {s : State} (hs : s.Inv) {r d : Byte} (hn : s.cnt.toNat < 8) : (s.takeByte r d).Inv := by
  have hcnt : (s.takeByte r d).cnt.toNat = s.cnt.toNat + 1 := by
    simp [BitVec.toNat_add]; omega
  exact
    { hs with
      cnt_legal := by rw [hcnt, params_idBytes]; omega
      empty_unit := fun h0 => absurd (h0 ▸ hcnt).symm (Nat.succ_ne_zero _)
      overrun_full := fun ho => by
        have := hs.overrun_full ho
        rw [params_idBytes] at this
        omega }

theorem inv_overrun {s : State} (hs : s.Inv) (hn : ¬ s.cnt.toNat < 8) : s.overrun.Inv :=
  { hs with overrun_full := fun _ => le_antisymm hs.cnt_legal (not_lt.mp hn) }

theorem inv_startWait {s : State} (hs : s.Inv) (sp : Bool) : (s.startWait (waitStart sp)).Inv :=
  { hs with
    active_before_deadline := fun _ => by
      have := hs.tmo_legal
      simp only [startWait_elap, startWait_tmo]
      bv_omega
    active_no_result := fun _ => rfl
    drain_after_timeout := fun hd => by rcases waitStart_eq sp with hf | hf <;> simp [hf] at hd
    ready_not_busy := nofun }

/-- In IDLE any legal deadline may be stored, below ELAP too (log 5). -/
theorem inv_writeTmo {s : State} (hs : s.Inv) (hi : s.fst = .idle) (d : Byte) : (s.writeTmo (legalTmo d)).Inv :=
  { hs with
    tmo_legal := legalTmo_ne_zero d
    active_before_deadline := fun ha => by simp [hi, Fst.isActive] at ha
    drain_after_timeout := fun hd => by simp [hi] at hd }

theorem consume_keeps_inv {inp : Inputs} {s t : State} (hs : s.Inv) (h : consume inp s = .next t) : t.Inv := by
  apply consume_elim (Q := State.Inv) h
  case same => exact hs
  case illegal => exact inv_congr hs rfl rfl
  case clrErr => exact inv_congr hs rfl rfl
  case crcClr => exact inv_clearCrc hs
  case takeByte => exact fun d hn => inv_takeByte hs hn
  case overrun => exact inv_overrun hs
  case startWait => exact fun sp _ => inv_startWait hs sp
  case writeTmo => exact fun d _ _ hi => inv_writeTmo hs hi d
  case reject => exact fun _ => inv_congr hs rfl rfl

/-! ## The wait FSM -/

/-- ELAP after the tick count's write. -/
def elapNext (s : State) (inp : Inputs) : Byte := (tickWrite s inp).getD s.elap

/-- While a wait is active its new ELAP is TMO exactly when the deadline is hit, and below TMO otherwise (R165). -/
theorem elapNext_active {s : State} (inp : Inputs) (hs : s.Inv) (ha : s.fst.isActive = true) :
    (deadlineHit s inp = true → elapNext s inp = s.tmo) ∧
    (deadlineHit s inp = false → (elapNext s inp).toNat < s.tmo.toNat) := by
  have hlt := hs.active_before_deadline ha
  cases ht : inp.tick with
  | false => simp [deadlineHit, elapNext, tickWrite, countsTick, ht, hlt]
  | true =>
    simp only [deadlineHit, elapNext, tickWrite, countsTick, ht, ha, Bool.and_self, Bool.true_and, if_true,
      Option.getD_some, decide_eq_true_eq, decide_eq_false_iff_not]
    constructor <;> intro hh <;> bv_omega

/-- The invariant after the FSM's writes, from what they must leave in the wait FSM's elements. -/
theorem inv_applyFsm {s : State} {w : FsmWrites} (hs : s.Inv)
    (hactive : (w.fst.getD s.fst).isActive = true →
      (w.elap.getD s.elap).toNat < s.tmo.toNat ∧ w.res.getD s.res = .none)
    (hdrain : w.fst.getD s.fst = .drain → w.res.getD s.res = .timeout ∧ w.elap.getD s.elap = s.tmo)
    (hready : w.res.getD s.res = .ready → isBusy Config.params (w.stat.getD s.stat) = false) : (s.applyFsm w).Inv :=
  { hs with
    active_before_deadline := fun h => (hactive h).1
    active_no_result := fun h => (hactive h).2
    drain_after_timeout := hdrain
    ready_not_busy := hready }

theorem fsmStep_keeps_inv {s : State} (inp : Inputs) (hs : s.Inv) :
    (s.applyFsm (fsmStep Config.params s inp).1).Inv := by
  rcases fsmStep_cases Config.params s inp with ⟨-, -, hw | ⟨hf, -, hw⟩⟩ | ⟨ha, hh, f, st, hw, hf, -⟩ |
    ⟨ha, hh, g, st, hw, hg, -⟩ | ⟨-, -, -, hb, hw⟩ | ⟨-, -, -, hw⟩ <;> rw [hw]
  case inl.inl => exact hs
  case inl.inr => exact inv_applyFsm hs nofun nofun hs.ready_not_busy
  case inr.inl =>
    have hres := hs.active_no_result ha
    have hnext : (f.getD s.fst).isActive = true := by
      rcases hf with rfl | ⟨g, rfl, hg⟩
      · exact ha
      · exact hg
    refine inv_applyFsm hs (fun _ => ⟨(elapNext_active inp hs ha).2 hh, hres⟩) (fun hd => ?_) (fun hr => ?_)
    · have hd : f.getD s.fst = .drain := hd
      simp [hd, Fst.isActive] at hnext
    · simp [hres] at hr
  case inr.inr.inl =>
    refine inv_applyFsm hs (fun h => ?_) (fun _ => ⟨rfl, (elapNext_active inp hs ha).1 hh⟩) nofun
    rcases hg with rfl | rfl <;> simp [Fst.isActive] at h
  case inr.inr.inr.inl => exact inv_applyFsm hs nofun nofun fun _ => hb
  case inr.inr.inr.inr => exact inv_applyFsm hs nofun nofun nofun

/-! ## The whole cycle -/

/-- Every completed cycle keeps the invariant, whatever its inputs. -/
theorem step_keeps_inv {s t : State} (hs : s.Inv) (h : step s = .next t) : t.Inv := by
  rcases step_cases h with ⟨-, rfl⟩ | ⟨-, -, u, hu, rfl⟩
  · exact inv_congr (inv_loadReset s) rfl rfl
  · have hui : u.Inv := consume_keeps_inv hs hu
    refine inv_congr ?_ (crcUnit_endCycle ..) (waitUnit_endCycle ..)
    rcases fsmStep_after_consume Config.params hu with ⟨-, hnone⟩ | ⟨-, hsame⟩
    · rwa [hnone]
    · rw [hsame]
      exact fsmStep_keeps_inv _ hui

/-- From a state of the invariant no cycle is refused. -/
theorem step_completes_of_inv {s : State} (hs : s.Inv) : ∃ t, step s = .next t := by
  cases hr : s.nextInputs.rst with
  | true => exact ⟨_, runCycle_reset hr⟩
  | false =>
    obtain ⟨u, hu, -⟩ := consume_cases s.nextInputs s
    exact ⟨_, runCycle_legal hr ((inLegalRange_iff s).mpr ⟨hs.cnt_legal, hs.tmo_legal⟩) hu⟩

/-- Settles O48: the command keeps the invariant, the wait FSM's step keeps it, and in one cycle they write apart. -/
theorem everyCycleKeepsTheInvariant : Obligations.EveryCycleKeepsTheInvariant := fun _ _ => step_keeps_inv

end Sys2Proof.Machine
end

section
/-! The CRC unit through a run: it holds what the bytes fed since the last CRC.CLR or reset give (10_state.md R29,
41_crc8.md R127). -/

namespace Sys2Proof.Machine

/-! ## The unit by the bytes fed, one byte more -/

theorem remainder_append_singleton (P : Params) (c : Byte) (bs : List Byte) (d : Byte) :
    remainder P c (bs ++ [d]) = crcNext P (remainder P c bs) d := by
  simp [remainder]

theorem unitOf_nil : unitOf Config.params [] = ⟨0x00, 0, 0x00, false⟩ := rfl

theorem unitOf_append_room {bs : List Byte} (hn : bs.length < 8) (d : Byte) : unitOf Config.params (bs ++ [d]) =
    ⟨crcNext Config.params (remainder Config.params 0 (bs.take 8)) d, BitVec.ofNat 4 (min bs.length 8) + 1,
      if bs = [] then d else bs.headD 0, false⟩ := by
  have htake : bs.take 8 = bs := List.take_of_length_le hn.le
  have htake' : (bs ++ [d]).take 8 = bs ++ [d] := List.take_of_length_le (by simpa using hn)
  have hcnt : BitVec.ofNat 4 (min (bs ++ [d]).length 8) = BitVec.ofNat 4 (min bs.length 8) + 1 := by
    have hmin : min (bs ++ [d]).length 8 = min bs.length 8 + 1 := by simp; omega
    exact hmin ▸ BitVec.ofNat_add ..
  have hfam : (bs ++ [d]).headD 0 = if bs = [] then d else bs.headD 0 := by cases bs <;> simp
  have hovf : ¬ 8 < (bs ++ [d]).length := by simp; omega
  rw [unitOf_eight, htake', htake, remainder_append_singleton, hcnt, hfam, decide_eq_false hovf]

theorem unitOf_append_full {bs : List Byte} (hn : ¬ bs.length < 8) (d : Byte) :
    unitOf Config.params (bs ++ [d]) = { unitOf Config.params bs with ovf := true } := by
  have htake : (bs ++ [d]).take 8 = bs.take 8 := List.take_append_of_le_length (by omega)
  have hcnt : min (bs ++ [d]).length 8 = min bs.length 8 := by simp; omega
  have hfam : (bs ++ [d]).headD 0 = bs.headD 0 := by
    cases bs with
    | nil => simp at hn
    | cons b bs => rfl
  have hovf : 8 < (bs ++ [d]).length := by simp; omega
  rw [unitOf_eight, unitOf_eight, htake, hcnt, hfam, decide_eq_true hovf]

/-- CRC.BYTE adds its byte to those the unit holds. -/
theorem exec_crcByte_unitOf {s t : State} {bs : List Byte} {d : Byte} (hs : s.crcUnit = unitOf Config.params bs)
    (h : exec (.crcByte d) s = .next t) : t.crcUnit = unitOf Config.params (bs ++ [d]) := by
  obtain ⟨hcrc, hcnt, hfam, hovf⟩ := crcUnit_eq_unitOf hs
  by_cases hn : bs.length < 8
  · rw [exec_crcByte_room (by omega)] at h
    cases h
    have hzero : s.cnt = 0#4 ↔ bs = [] := by
      rw [← BitVec.toNat_inj, hcnt, ← List.length_eq_zero_iff]
      simp
    have hcnt' : s.cnt = BitVec.ofNat 4 (min bs.length 8) := by rw [← hcnt, BitVec.ofNat_toNat, BitVec.setWidth_eq]
    have hnot : ¬ 8 < bs.length := by omega
    rw [unitOf_append_room hn, ← hcrc, ← hcnt', ← hfam]
    simp [State.crcUnit, hzero, hovf, hnot]
  · rw [exec_crcByte_full (by omega)] at h
    cases h
    rw [unitOf_append_full hn, ← hs]
    rfl

/-! ## One cycle, and any number of cycles -/

theorem fedAfter_reset {inp : Inputs} (bs : List Byte) (hr : inp.rst = true) : fedAfter bs inp = [] := if_pos hr

theorem fedAfter_noCommand {inp : Inputs} (bs : List Byte) (hr : inp.rst = false) (hv : inp.cmdValid = false) :
    fedAfter bs inp = bs := by
  simp [fedAfter, hr, hv]

theorem fedAfter_illegal {inp : Inputs} (bs : List Byte) (h : presentsIllegal inp) : fedAfter bs inp = bs := by
  obtain ⟨hr, hv, why, hd⟩ := h
  simp [fedAfter, hr, hv, hd]

/-- The commands as R29 sees them. -/
def fedBy (bs : List Byte) : Instr → List Byte
  | .crcClr => []
  | .crcByte d => bs ++ [d]
  | .nop => bs
  | .waitReady _ => bs
  | .setTmo _ => bs
  | .clrErr => bs

theorem fedAfter_command {inp : Inputs} {c : Instr} (bs : List Byte) (h : presents inp c) :
    fedAfter bs inp = fedBy bs c := by
  obtain ⟨hr, hv, hd⟩ := h
  cases c <;> simp [fedAfter, fedBy, hr, hv, hd]

theorem exec_unitOf {s t : State} {bs : List Byte} {c : Instr} (hs : s.crcUnit = unitOf Config.params bs)
    (h : exec c s = .next t) : t.crcUnit = unitOf Config.params (fedBy bs c) := by
  cases c with
  | nop | clrErr => cases h; exact hs
  | crcClr => cases h; rfl
  | crcByte d => exact exec_crcByte_unitOf hs h
  | waitReady sp => cases h; exact (crcUnit_acceptInIdle (crcUnit_startWait ..)).trans hs
  | setTmo d => cases h; exact (crcUnit_acceptInIdle (crcUnit_writeTmo ..)).trans hs

/-- A completed cycle keeps the CRC unit in step with the bytes fed. -/
theorem step_unitOf {s t : State} {bs : List Byte} (hs : s.crcUnit = unitOf Config.params bs) (h : step s = .next t) :
    t.crcUnit = unitOf Config.params (fedAfter bs s.nextInputs) := by
  rcases step_crcUnit h with ⟨hr, ht⟩ | ⟨hr, u, hu, ht⟩
  · rw [ht, fedAfter_reset bs hr, crcUnit_loadReset, unitOf_nil, params_crcInit]
  · rw [ht]
    rcases commandPort_cases hr with hv | hill | ⟨c, hc⟩
    · rw [consume_noCommand s hv] at hu
      cases hu
      rw [fedAfter_noCommand bs hr hv, hs]
    · rw [consume_presentsIllegal s hill] at hu
      cases hu
      rw [fedAfter_illegal bs hill, crcUnit_flagIllegal, hs]
    · rw [consume_presents s hc] at hu
      rw [fedAfter_command bs hc]
      exact exec_unitOf hs hu

/-- From a state of the invariant whose unit holds the bytes `bs`, `n` cycles complete, and the unit then holds `bs` as
the cycles have changed them. -/
theorem runSteps_unitOf (n : Nat) {s : State} {bs : List Byte} (hi : s.Inv)
    (hs : s.crcUnit = unitOf Config.params bs) :
    ∃ t, runSteps n s = .next t ∧ t.crcUnit = unitOf Config.params ((upcoming n s).foldl fedAfter bs) := by
  induction n generalizing s bs with
  | zero => exact ⟨s, rfl, hs⟩
  | succ n ih =>
    obtain ⟨u, hu⟩ := step_completes_of_inv hi
    rw [runSteps_succ hu, upcoming_succ hu, List.foldl_cons]
    exact ih (step_keeps_inv hi hu) (step_unitOf hs hu)

/-- Settles O20, by induction on the number of cycles; the invariant lets each cycle complete. -/
theorem crcUnitHoldsTheBytesFed : Obligations.CrcUnitHoldsTheBytesFed :=
  fun n _ hi hs => runSteps_unitOf n hi (hs.trans unitOf_nil.symm)

end Sys2Proof.Machine
end

section
/-! Each element of the state and each output port in the next cycle (10_state.md R25 to R32). -/

namespace Sys2Proof.Machine

/-! ## The output ports -/

theorem isRequesting_iff (f : Fst) : f.isRequesting = true ↔ f = .spReq ∨ f = .rdReq := by
  cases f <;> simp [Fst.isRequesting]

/-- Settles O38: the outputs of a completed cycle are those of its start-of-cycle state (`step_out`), port by port. -/
theorem outputPorts : Obligations.OutputPorts := by
  intro s t h
  rw [step_out h]
  refine ⟨rfl, ?_, ?_, rfl, rfl, ?_⟩
  · simp [isRequesting_iff]
  · simp
  · simp [fsmStep_done_iff]

/-! ## REJ and ILL -/

/-- The commands a state other than IDLE rejects (R102). -/
def idleOnly (c : Instr) : Prop := (∃ sp, c = .waitReady sp) ∨ ∃ d, c = .setTmo d

theorem acceptInIdle_rej {s accepted : State} (h : accepted.rej = s.rej) :
    (acceptInIdle s accepted).rej = true ↔ s.rej = true ∨ s.fst ≠ .idle := by
  by_cases hi : s.fst = .idle
  · simp [acceptInIdle_idle _ hi, hi, h]
  · simp [acceptInIdle_busy _ hi, hi]

theorem acceptInIdle_ill {s accepted : State} (h : accepted.ill = s.ill) : (acceptInIdle s accepted).ill = s.ill := by
  by_cases hi : s.fst = .idle
  · simp [acceptInIdle_idle _ hi, h]
  · simp [acceptInIdle_busy _ hi]

/-- What a command does to the two flags (R102, R108). -/
theorem exec_flags {c : Instr} {s t : State} (h : exec c s = .next t) :
    (t.rej = true ↔ c ≠ .clrErr ∧ (s.rej = true ∨ (s.fst ≠ .idle ∧ idleOnly c))) ∧
    (t.ill = true ↔ c ≠ .clrErr ∧ s.ill = true) := by
  cases c with
  | nop | crcClr | clrErr => cases h; simp [idleOnly]
  | crcByte d =>
    by_cases hn : s.cnt.toNat < 8
    · rw [exec_crcByte_room hn] at h; cases h; simp [idleOnly]
    · rw [exec_crcByte_full hn] at h; cases h; simp [idleOnly]
  | waitReady sp => cases h; simp [idleOnly, acceptInIdle_rej (startWait_rej ..), acceptInIdle_ill (startWait_ill ..)]
  | setTmo d => cases h; simp [idleOnly, acceptInIdle_rej (writeTmo_rej ..), acceptInIdle_ill (writeTmo_ill ..)]

/-- What a cycle without reset does to the two flags, by what it presents (R28, R103, R104). -/
theorem consume_flags {inp : Inputs} {s t : State} (hr : inp.rst = false) (h : consume inp s = .next t) :
    (t.rej = true ↔ ¬ presents inp .clrErr ∧
      (s.rej = true ∨ (s.fst ≠ .idle ∧ ∃ c, presents inp c ∧ idleOnly c))) ∧
    (t.ill = true ↔ ¬ presents inp .clrErr ∧ (s.ill = true ∨ presentsIllegal inp)) := by
  rcases commandPort_cases hr with hv | hill | ⟨c, hc⟩
  · rw [consume_noCommand s hv] at h
    cases h
    simp [not_presents_of_noCommand hv, not_presentsIllegal_of_noCommand hv]
  · rw [consume_presentsIllegal s hill] at h
    cases h
    simp [not_presents_of_illegal hill, hill]
  · rw [consume_presents s hc] at h
    have hnill : ¬ presentsIllegal inp := fun hill => not_presents_of_illegal hill c hc
    obtain ⟨hrej, hill⟩ := exec_flags h
    simp [hrej, hill, presents_iff_eq hc, hnill, eq_comm (a := Instr.clrErr)]

/-- Settles O42: the flags are the command's to write, and reset clears them. -/
theorem stickyFlagsSetAndCleared : Obligations.StickyFlagsSetAndCleared := by
  intro s t h
  rcases step_cases h with ⟨hr, rfl⟩ | ⟨hr, -, u, hu, rfl⟩
  · simp [hr]
  · simpa [hr, idleOnly] using consume_flags hr hu

/-! ## TMO and STAT -/

/-- Settles O43: besides reset only the command writes TMO, and only as SET.TMO in IDLE, a nonzero value. -/
theorem tmoChangesOnlyInIdle : Obligations.TmoChangesOnlyInIdle := by
  intro s t h
  rcases step_cases h with ⟨hr, rfl⟩ | ⟨hr, -, u, hu, rfl⟩
  · exact ⟨fun _ => by simp, fun _ => .inl hr⟩
  · rcases consume_tmo hu with hkeep | ⟨hi, d, hv, hd, hset⟩
    · simp [hkeep]
    · refine ⟨fun _ => ?_, fun _ => .inr ⟨hi, d, ⟨hr, hv, hd⟩, hset⟩⟩
      simpa [hset] using legalTmo_ne_zero d

/-- Settles O44: no command writes STAT, and the FSM writes it at a successful status read alone. -/
theorem statHoldsTheLastStatusRead : Obligations.StatHoldsTheLastStatusRead := by
  intro s t h
  rcases step_cases h with ⟨hr, rfl⟩ | ⟨hr, -, u, hu, rfl⟩
  · simp [hr]
  · simp only [endCycle_stat, applyFsm_stat, fsmStep_stat, consume_stat hu, hr, Bool.false_eq_true, if_false]
    split <;> rfl

/-! ## FST -/

/-- The transitions of the FSM's own step (R167 to R171): along the table, with a transaction ended by a response and
begun by an accepted request. -/
theorem fsmNext_moves (P : Params) {s : State} (inp : Inputs) (hi : s.fst ≠ .idle) :
    fstMayFollow s.fst (fsmNext P s inp) = true ∧
    (s.fst.isOutstanding = true → (fsmNext P s inp).isOutstanding = false → inp.xrspValid = true) ∧
    (s.fst.isOutstanding = false → (fsmNext P s inp).isOutstanding = true →
      s.fst.isRequesting = true ∧ inp.xreqReady = true) := by
  cases hf : s.fst with
  | idle => exact absurd hf hi
  | spReq =>
    rw [fsmNext_request P inp (.inl ⟨hf, rfl⟩), hf]
    cases inp.xreqReady <;> cases deadlineHit s inp <;> simp [fstMayFollow, Fst.isOutstanding, Fst.isRequesting]
  | rdReq =>
    rw [fsmNext_request P inp (.inr ⟨hf, rfl⟩), hf]
    cases inp.xreqReady <;> cases deadlineHit s inp <;> simp [fstMayFollow, Fst.isOutstanding, Fst.isRequesting]
  | spWait =>
    rcases fsmNext_wait P inp (.inl hf) with ⟨hv, hn | hn⟩ | ⟨hv, hn | hn⟩ <;>
      simp [hn, hf, hv, fstMayFollow, Fst.isOutstanding]
  | rdWait =>
    rcases fsmNext_wait P inp (.inr hf) with ⟨hv, hn | hn⟩ | ⟨hv, hn | hn⟩ <;>
      simp [hn, hf, hv, fstMayFollow, Fst.isOutstanding]
  | drain =>
    rw [fsmNext_drain P inp hf]
    cases inp.xrspValid <;> simp [fstMayFollow, Fst.isOutstanding]

/-- Settles O45: in IDLE a command may start a wait at a request, elsewhere FST is the FSM's own. -/
theorem fsmMovesOnlyAlongItsTransitions : Obligations.FsmMovesOnlyAlongItsTransitions := by
  intro s t h hr
  rcases step_fst h hr with ⟨hi, ht⟩ | ⟨hi, ht⟩
  · rcases ht with ht | ht | ht <;> simp [hi, ht, fstMayFollow, Fst.isOutstanding]
  · rw [ht]
    exact fsmNext_moves Config.params s.nextInputs hi

/-! ## ELAP against TMO (log 5) -/

/-- SET.TMO 2, a wait that its second tick ends with its request withdrawn, SET.TMO 1. -/
def shortenedDeadlineInputs : List Inputs :=
  [.command 0x4002, .command 0x3000, .ticking, .ticking, .command 0x4001]

/-- The state those cycles leave: ELAP is 2 and TMO is 1. -/
def shortenedDeadline : State :=
  { State.reset with tmo := 1, elap := 2, res := .timeout, cycle := 5 }

theorem shortenedDeadline_reached :
    runSteps shortenedDeadlineInputs.length { State.reset with inputs := shortenedDeadlineInputs } =
      .next shortenedDeadline := by
  rfl

theorem eq_drain_of_not_active {f : Fst} (hi : f ≠ .idle) (ha : f.isActive = false) : f = .drain := by
  cases f <;> simp_all [Fst.isActive]

theorem elap_le_tmo_of_busy {s : State} (hs : s.Inv) (hi : s.fst ≠ .idle) : s.elap.toNat ≤ s.tmo.toNat := by
  cases ha : s.fst.isActive with
  | true => exact (hs.active_before_deadline ha).le
  | false =>
    obtain ⟨-, helap⟩ := hs.drain_after_timeout (eq_drain_of_not_active hi ha)
    exact (congrArg BitVec.toNat helap).le

/-- Settles O53: the run `shortenedDeadlineInputs`, and the invariant for every state outside IDLE. -/
theorem elapMayExceedTmoOnlyInIdle : Obligations.ElapMayExceedTmoOnlyInIdle :=
  ⟨⟨shortenedDeadlineInputs, shortenedDeadline, shortenedDeadline_reached, rfl, by decide⟩,
    fun _ => elap_le_tmo_of_busy⟩

end Sys2Proof.Machine
end

section
/-! The placed word (log 12), the verdict as CRCRES reads it (10_state.md R42, R43), and the start state (R22, R40). -/

namespace Sys2Proof.Machine

/-! ## The placed word -/

/-- The table's bits that decode to a command fit their row and hold the command's word. -/
theorem decodeTableWord_eq_some {nbits w : Nat} {i : Instr} (h : decodeTableWord nbits w = some i) :
    w < 2 ^ nbits ∧ decodeWord (BitVec.ofNat 16 w) = .command i := by
  unfold decodeTableWord at h
  split at h
  case isTrue hb =>
    refine ⟨hb.2, ?_⟩
    cases hd : decodeWord (BitVec.ofNat 16 w) with
    | command c => simpa [hd] using h
    | illegal why => simp [hd] at h
  case isFalse => cases h

/-- Settles O6: the placed cycle presents the table's bits, and its row cuts none of them off. -/
theorem fetchWordIsPresentedNext : Obligations.FetchWordIsPresentedNext := by
  intro s nbits w i h
  obtain ⟨hw, hd⟩ := decodeTableWord_eq_some h
  refine ⟨⟨rfl, rfl, ?_⟩, rfl, rfl⟩
  simpa [State.withFetchWord, tableCycle, Inputs.command, Nat.mod_eq_of_lt hw] using hd

/-! ## CRCRES and the bits of CRCST -/

/-- The layout of CRCST's upper bits (R41), over every value of its five fields. -/
theorem flagBits_layout : ∀ (ovf famz zero full : Bool) (cnt : BitVec 4),
    let r : Byte := BitVec.ofBool ovf ++ BitVec.ofBool famz ++ BitVec.ofBool zero ++ BitVec.ofBool full ++ cnt
    r.getLsbD 5 = zero ∧ r.getLsbD 6 = famz ∧ r.getLsbD 7 = ovf := by
  decide

theorem regCrcst_upper_bits (P : Params) (s : State) :
    (regCrcst P s).getLsbD 5 = zeroFlag s ∧ (regCrcst P s).getLsbD 6 = famzFlag s ∧ (regCrcst P s).getLsbD 7 = s.ovf :=
  flagBits_layout s.ovf (famzFlag s) (zeroFlag s) (fullFlag P s) s.cnt

/-- CRCRES as a number, by the bytes fed, the family code and the remainder. -/
theorem regCrcres_eq (s : State) : regCrcres Config.params s =
    if s.cnt.toNat < 8 then 0 else if s.fam = 0 then 2 else if s.crc ≠ 0 then 3 else 1 := by
  rw [regCrcres, verdict_eight]
  split_ifs <;> rfl

theorem regCrcres_upper_bits (P : Params) (s : State) : (regCrcres P s).extractLsb' 2 6 = 0 := by
  unfold regCrcres
  cases verdict P s <;> rfl

/-- Settles O24, from CRCRES as a number and the bits of CRCST; a ninth byte writes OVF alone. -/
theorem verdictRegister : Obligations.VerdictRegister := by
  intro s
  simp only [reg_one, reg_three, regCrcst_upper_bits]
  refine ⟨regCrcres_upper_bits _ s, fun hn => ?_, fun hn hf => ?_, fun hn hf hc => ?_, fun hn hf hc => ?_,
    fun hn hf hc => ?_, fun _ => rfl, fun d hn => ?_, rfl⟩
  · rw [regCrcres_eq, if_pos hn]
  · rw [regCrcres_eq, if_neg hn.not_gt, if_pos hf]
  · rw [regCrcres_eq, if_neg hn.not_gt, if_neg hf, if_pos hc]
  · rw [regCrcres_eq, if_neg hn.not_gt, if_neg hf, if_neg (not_not.mpr hc)]
  · have hone : 1 ≤ s.cnt.toNat := by omega
    exact ⟨by simp [famzFlag, hf, hone], by simpa [zeroFlag] using hc⟩
  · exact ⟨_, exec_crcByte_full (by simp [hn]), rfl, rfl⟩

/-! ## The start state -/

/-- Settles O41: the start state is written out, so each value can be read off. -/
theorem modelStartsAtResetState : Obligations.ModelStartsAtResetState :=
  ⟨rfl, rfl, rfl, rfl, by decide⟩

end Sys2Proof.Machine
end

section
/-! The frame of each command, by sub-unit (20_memory.md R63, 40_cycle.md R105, R111). -/

namespace Sys2Proof.Machine

/-- With room or without, CRC.BYTE writes elements of the CRC unit alone. -/
theorem exec_crcByte_frame (d : Byte) (s : State) :
    ∃ t, exec (.crcByte d) s = .next t ∧ t.waitUnit = s.waitUnit ∧ t.rej = s.rej ∧ t.ill = s.ill := by
  by_cases hroom : s.cnt.toNat < 8
  · exact ⟨_, exec_crcByte_room hroom, rfl, rfl, rfl⟩
  · exact ⟨_, exec_crcByte_full hroom, rfl, rfl, rfl⟩

/-- Settles O27, command by command: CRC.BYTE by room in the unit, WAIT.READY and SET.TMO by acceptance in IDLE. -/
theorem commandsKeepTheOtherUnit : Obligations.CommandsKeepTheOtherUnit := by
  refine ⟨fun d s => ?crc, fun sp d s => ?wait, fun s => ?neither⟩ <;>
    rw [List.forall_mem_cons, List.forall_mem_singleton]
  case crc => exact ⟨⟨_, exec_crcClr s, rfl, rfl, rfl⟩, exec_crcByte_frame d s⟩
  case wait =>
    exact ⟨⟨_, exec_waitReady sp s, crcUnit_acceptInIdle (crcUnit_startWait ..), acceptInIdle_ill (startWait_ill ..)⟩,
      ⟨_, exec_setTmo d s, crcUnit_acceptInIdle (crcUnit_writeTmo ..), acceptInIdle_ill (writeTmo_ill ..)⟩⟩
  case neither =>
    exact ⟨⟨_, exec_nop s, rfl, rfl⟩, ⟨_, exec_clrErr s, crcUnit_clearErrors s, waitUnit_clearErrors s⟩⟩

end Sys2Proof.Machine
end

section
/-! The decoder field by field: a command is its opcode, flag and data byte, and a word is its four fields
(30_encoding.md R70 to R74). -/

namespace Sys2Proof

/-! ## A word is its fields -/

@[simp] theorem fieldOp_packWord (op : BitVec 4) (s : Bool) (d : Byte) : fieldOp (packWord op s d) = op := by
  ext i hi
  grind [fieldOp, packWord]

@[simp] theorem fieldZ_packWord (op : BitVec 4) (s : Bool) (d : Byte) : fieldZ (packWord op s d) = 0 := by
  ext i hi
  grind [fieldZ, packWord]

@[simp] theorem fieldS_packWord (op : BitVec 4) (s : Bool) (d : Byte) : fieldS (packWord op s d) = s := by
  simp [fieldS, packWord]

@[simp] theorem fieldD_packWord (op : BitVec 4) (s : Bool) (d : Byte) : fieldD (packWord op s d) = d := by
  ext i hi
  grind [fieldD, packWord]

theorem word_eq_append_fields (w : Word) :
    w = fieldOp w ++ fieldZ w ++ BitVec.ofBool (fieldS w) ++ fieldD w := by
  ext i hi
  grind [fieldOp, fieldZ, fieldS, fieldD]

theorem word_eq_iff_fields {v w : Word} : v = w ↔
    fieldOp v = fieldOp w ∧ fieldZ v = fieldZ w ∧ fieldS v = fieldS w ∧ fieldD v = fieldD w := by
  refine ⟨fun h => h ▸ ⟨rfl, rfl, rfl, rfl⟩, fun ⟨hop, hz, hs, hd⟩ => ?_⟩
  rw [word_eq_append_fields v, word_eq_append_fields w, hop, hz, hs, hd]

/-! ## A command is its fields -/

/-- `OP` of the command's word (R72). -/
def Instr.opcode : Instr → BitVec 4
  | .nop => 0
  | .crcClr => 1
  | .crcByte _ => 2
  | .waitReady _ => 3
  | .setTmo _ => 4
  | .clrErr => 5

/-- `S` of the command's word (R72). -/
def Instr.flag : Instr → Bool
  | .waitReady s => s
  | _ => false

/-- `D` of the command's word (R72). -/
def Instr.data : Instr → Byte
  | .crcByte d => d
  | .setTmo d => d
  | _ => 0

theorem encode_eq_packWord (i : Instr) : encode i = packWord i.opcode i.flag i.data := by
  cases i <;> rfl

theorem needsS0_eq_command_iff {w : Word} {r : Decoded} {i : Instr} :
    needsS0 w r = .command i ↔ fieldS w = false ∧ r = .command i := by
  cases h : fieldS w <;> simp [needsS0, h]

theorem needsD0_eq_command_iff {w : Word} {r : Decoded} {i : Instr} :
    needsD0 w r = .command i ↔ fieldD w = 0 ∧ r = .command i := by
  by_cases h : fieldD w = 0#8 <;> simp [needsD0, h]

/-- The decoder gives the command whose fields the word carries, with `Z` = 0, and no other (R73). -/
theorem decodeWord_eq_command_iff {w : Word} {i : Instr} : decodeWord w = .command i ↔
    fieldOp w = i.opcode ∧ fieldZ w = 0 ∧ fieldS w = i.flag ∧ fieldD w = i.data := by
  constructor
  case mp =>
    intro h
    unfold decodeWord at h
    split at h
    case isTrue => cases h
    case isFalse hz =>
      have hop {n : Nat} (hn : (fieldOp w).toNat = n) : fieldOp w = BitVec.ofNat 4 n := by simp [← hn]
      split at h <;>
        simp only [needsS0_eq_command_iff, needsD0_eq_command_iff, Decoded.command.injEq, reduceCtorEq] at h
      case h_1 hn | h_2 hn | h_6 hn =>
        obtain ⟨hs, hd, rfl⟩ := h
        exact ⟨hop hn, not_not.mp hz, hs, hd⟩
      case h_3 hn | h_5 hn =>
        obtain ⟨hs, rfl⟩ := h
        exact ⟨hop hn, not_not.mp hz, hs, rfl⟩
      case h_4 hn =>
        obtain ⟨hd, rfl⟩ := h
        exact ⟨hop hn, not_not.mp hz, rfl, hd⟩
  case mpr =>
    rintro ⟨hop, hz, hs, hd⟩
    rw [decodeWord, if_neg (not_not.mpr hz), hop]
    cases i <;> simpa [Instr.opcode, Instr.flag, Instr.data, needsS0_eq_command_iff, needsD0_eq_command_iff, and_comm]
      using And.intro hs hd

/-- Settles O2: both sides say that the word carries the command's fields and `Z` = 0. -/
theorem decodeExactlyInvertsEncode : Obligations.DecodeExactlyInvertsEncode := by
  intro w i
  rw [decodeWord_eq_command_iff, encode_eq_packWord, word_eq_iff_fields]
  simp

theorem encode_injective : Function.Injective encode := by
  intro i j h
  have hi : decodeWord (encode i) = .command i := (decodeExactlyInvertsEncode _ i).mpr rfl
  have hj : decodeWord (encode i) = .command j := (decodeExactlyInvertsEncode _ j).mpr h
  exact Decoded.command.inj (hi.symm.trans hj)

/-! ## Masks and matches -/

/-- The word has the value `v` under the mask `m` when each of its fields has it under the mask's field. -/
theorem masked_eq_iff_fields {w m v : Word} : w &&& m = v ↔
    fieldOp w &&& fieldOp m = fieldOp v ∧ fieldZ w &&& fieldZ m = fieldZ v ∧
    (fieldS w && fieldS m) = fieldS v ∧ fieldD w &&& fieldD m = fieldD v := by
  rw [word_eq_iff_fields]
  simp only [fieldOp, fieldZ, fieldS, fieldD, BitVec.extractLsb'_and, BitVec.getLsbD_and]

/-- Rows whose matches differ in a bit that both masks keep match no common word. -/
theorem masked_disjoint {m v m' v' : Word} (h : v &&& m' ≠ v' &&& m) (w : Word) : ¬(w &&& m = v ∧ w &&& m' = v') := by
  rintro ⟨rfl, rfl⟩
  exact h (by ac_rfl)

/-- A mask that keeps `OP` and `Z` whole fixes `Z` = 0; of `S` and `D` it fixes what it keeps. -/
theorem masked_eq_packWord_iff {w m : Word} {op : BitVec 4} (hop : fieldOp m = BitVec.allOnes 4)
    (hz : fieldZ m = BitVec.allOnes 3) : w &&& m = packWord op false 0 ↔
      fieldOp w = op ∧ fieldZ w = 0 ∧ (fieldS w && fieldS m) = false ∧ fieldD w &&& fieldD m = 0 := by
  rw [masked_eq_iff_fields, hop, hz, BitVec.and_allOnes, BitVec.and_allOnes, fieldOp_packWord, fieldZ_packWord,
    fieldS_packWord, fieldD_packWord]

theorem masked_FF00_eq_iff {w : Word} {op : BitVec 4} :
    w &&& 0xFF00 = packWord op false 0 ↔ fieldOp w = op ∧ fieldZ w = 0 ∧ fieldS w = false := by
  have hs : fieldS 0xFF00 = true := rfl
  have hd : fieldD 0xFF00 = 0 := rfl
  rw [masked_eq_packWord_iff rfl rfl, hs, hd]
  simp

theorem masked_FEFF_eq_iff {w : Word} {op : BitVec 4} :
    w &&& 0xFEFF = packWord op false 0 ↔ fieldOp w = op ∧ fieldZ w = 0 ∧ fieldD w = 0 := by
  have hs : fieldS 0xFEFF = false := rfl
  have hd : fieldD 0xFEFF = BitVec.allOnes 8 := rfl
  rw [masked_eq_packWord_iff rfl rfl, hs, hd, BitVec.and_allOnes]
  simp

/-- The mask 0xFFFF leaves nothing free: the match is the command's word. -/
theorem decodeWord_eq_command_iff_masked_FFFF (w : Word) (i : Instr) :
    decodeWord w = .command i ↔ w &&& 0xFFFF = encode i := by
  rw [decodeExactlyInvertsEncode w i]
  exact Eq.congr_left BitVec.and_allOnes.symm

/-- The mask 0xFF00 leaves `D` free, for a command with a data byte. -/
theorem decodeWord_eq_command_iff_masked_FF00 (w : Word) {i : Instr} {op : BitVec 4} (hop : i.opcode = op)
    (hs : i.flag = false) :
    decodeWord w = .command i ↔ w &&& 0xFF00 = packWord op false 0 ∧ i.data = fieldD w := by
  rw [decodeWord_eq_command_iff, masked_FF00_eq_iff, hop, hs, and_assoc, and_assoc, eq_comm (a := i.data)]

/-- The mask 0xFEFF leaves `S` free, for a command with a flag. -/
theorem decodeWord_eq_command_iff_masked_FEFF (w : Word) {i : Instr} {op : BitVec 4} (hop : i.opcode = op)
    (hd : i.data = 0) :
    decodeWord w = .command i ↔ w &&& 0xFEFF = packWord op false 0 ∧ i.flag = fieldS w := by
  rw [decodeWord_eq_command_iff, masked_FEFF_eq_iff, hop, hd, and_assoc, and_assoc, eq_comm (a := i.flag),
    and_comm (a := fieldD w = 0)]

/-! ## The legal words, listed -/

/-- The 517 commands, with every operand. -/
def legalCommands : List Instr :=
  [.nop, .crcClr, .clrErr, .waitReady false, .waitReady true] ++ (FinEnum.toList Byte).map .crcByte ++
    (FinEnum.toList Byte).map .setTmo

theorem mem_legalCommands (i : Instr) : i ∈ legalCommands := by
  cases i with
  | waitReady s => cases s <;> simp [legalCommands]
  | _ => simp [legalCommands]

theorem legalCommands_nodup : legalCommands.Nodup := by
  have hcrc : ((FinEnum.toList Byte).map Instr.crcByte).Nodup := FinEnum.nodup_toList.map fun _ _ => Instr.crcByte.inj
  have htmo : ((FinEnum.toList Byte).map Instr.setTmo).Nodup := FinEnum.nodup_toList.map fun _ _ => Instr.setTmo.inj
  simp [legalCommands, List.nodup_append, hcrc, htmo]

theorem legalCommands_length : legalCommands.length = 517 := by
  have hbytes : (FinEnum.toList Byte).length = 256 := by simp [FinEnum.toList]
  simp [legalCommands, hbytes]

/-- Settles O3: the masks keep the fields a command fixes, and the legal words are those of the listed commands. -/
theorem opcodeMapByMaskAndMatch : Obligations.OpcodeMapByMaskAndMatch := by
  refine ⟨fun w => ?rows, ?disjoint, legalCommands.map encode, ?nodup, ?length, fun w => ?mem⟩
  case rows =>
    exact ⟨decodeWord_eq_command_iff_masked_FFFF w .nop, decodeWord_eq_command_iff_masked_FFFF w .crcClr,
      fun d => decodeWord_eq_command_iff_masked_FF00 w (i := .crcByte d) (op := 2) rfl rfl,
      fun sp => decodeWord_eq_command_iff_masked_FEFF w (i := .waitReady sp) (op := 3) rfl rfl,
      fun d => decodeWord_eq_command_iff_masked_FF00 w (i := .setTmo d) (op := 4) rfl rfl,
      decodeWord_eq_command_iff_masked_FFFF w .clrErr⟩
  case disjoint => exact List.Pairwise.imp masked_disjoint (by decide)
  case nodup => exact legalCommands_nodup.map encode_injective
  case length => rw [List.length_map, legalCommands_length]
  case mem => simp only [List.mem_map, mem_legalCommands, true_and, decodeExactlyInvertsEncode w, eq_comm]

/-! ## The illegal words -/

theorem exists_needsS0_eq_illegal {w : Word} {r : Decoded} :
    (∃ why, needsS0 w r = .illegal why) ↔ fieldS w = true ∨ ∃ why, r = .illegal why := by
  cases h : fieldS w <;> simp [needsS0, h]

theorem exists_needsD0_eq_illegal {w : Word} {r : Decoded} :
    (∃ why, needsD0 w r = .illegal why) ↔ fieldD w ≠ 0 ∨ ∃ why, r = .illegal why := by
  by_cases h : fieldD w = 0#8 <;> simp [needsD0, h]

/-- The causes R74 lists, over the four fields. -/
theorem exists_decodeWord_eq_illegal {w : Word} : (∃ why, decodeWord w = .illegal why) ↔
    6 ≤ (fieldOp w).toNat ∨ fieldZ w ≠ 0 ∨ (fieldS w = true ∧ (fieldOp w).toNat ≠ 3) ∨
    (fieldD w ≠ 0 ∧ (fieldOp w).toNat ≠ 2 ∧ (fieldOp w).toNat ≠ 4) := by
  unfold decodeWord
  split
  case isTrue hz => exact iff_of_true ⟨_, rfl⟩ (.inr (.inl hz))
  case isFalse hz =>
    split
    case h_7 => exact iff_of_true ⟨_, rfl⟩ (.inl (by grind))
    all_goals
      rename_i hn
      simp [exists_needsS0_eq_illegal, exists_needsD0_eq_illegal, hn, not_not.mp hz]

/-- Settles O4, from the causes over the fields; 0x0000 is the word of NOP. -/
theorem illegalWordsByCause : Obligations.IllegalWordsByCause :=
  ⟨fun _ => exists_decodeWord_eq_illegal, fun s _ h => Machine.consume_presentsIllegal s h,
    fun w => decodeExactlyInvertsEncode w .nop⟩

theorem not_command_of_illegal {w : Word} (h : ∃ why, decodeWord w = .illegal why) (i : Instr) :
    decodeWord w ≠ .command i := by
  obtain ⟨why, hw⟩ := h
  simp [hw]

/-- Settles O1: the seven words are the commands' own, and each of the sixteen has a cause of R74. -/
theorem writtenOutWordsDecode : Obligations.WrittenOutWordsDecode := by
  refine ⟨?_, ?_, ?_, ?_, ?_, ?_, ?_, fun w hw => not_command_of_illegal (exists_decodeWord_eq_illegal.mpr ?illegal)⟩
  case illegal => fin_cases hw <;> decide
  all_goals exact (decodeExactlyInvertsEncode _ _).mpr rfl

end Sys2Proof
end

section
/-! The assembler's words (30_encoding.md R80, R81). -/

namespace Sys2Proof.Machine

theorem assemble_wellFormed {l : AsmLine} (h : l.wellFormed = true) : assemble l = some (wordsOf l) := if_pos h

theorem assemble_error {l : AsmLine} (h : l.wellFormed = false) : assemble l = none := by simp [assemble, h]

@[simp] theorem crcByteWord_toNat (b : Byte) : crcByteWord b.toNat = encode (.crcByte b) := by simp [crcByteWord]

@[simp] theorem operandInRange_toNat (b : Byte) : operandInRange b.toNat = true := decide_eq_true b.isLt

theorem assemble_crcCheck8 {bs : List Byte} (h : bs.length = 8) : assemble (.crcCheck8 (bs.map BitVec.toNat)) =
    some (encode .crcClr :: bs.map fun b => encode (.crcByte b)) := by
  rw [assemble_wellFormed (by simp [AsmLine.wellFormed, h])]
  simp [wordsOf]

theorem assemble_crcGen7 {bs : List Byte} (h : bs.length = 7) : assemble (.crcGen7 (bs.map BitVec.toNat)) =
    some (encode .crcClr :: bs.map fun b => encode (.crcByte b)) := by
  rw [assemble_wellFormed (by simp [AsmLine.wellFormed, h])]
  simp [wordsOf]

/-- Settles O54, from the words of a list of bytes of the right length. -/
theorem pseudoCommandsExpand : Obligations.PseudoCommandsExpand :=
  ⟨fun b0 b1 b2 b3 b4 b5 b6 b7 => assemble_crcCheck8 (bs := [b0, b1, b2, b3, b4, b5, b6, b7]) rfl,
    fun b0 b1 b2 b3 b4 b5 b6 => assemble_crcGen7 (bs := [b0, b1, b2, b3, b4, b5, b6]) rfl, rfl, rfl⟩

/-- The data byte lies below the other fields, so it adds to the word without it. -/
theorem packWord_eq_add (op : BitVec 4) (s : Bool) (d : Byte) :
    packWord op s d = packWord op s 0 + d.setWidth 16 := by
  have hdisjoint : packWord op s 0 &&& d.setWidth 16 = 0 := by
    ext i hi
    grind [packWord]
  rw [BitVec.add_eq_or_of_and_eq_zero _ _ hdisjoint]
  simp [packWord]

theorem packWord_ofNat {d : Nat} (h : d ≤ 255) (op : BitVec 4) (s : Bool) :
    packWord op s (BitVec.ofNat 8 d) = packWord op s 0 + BitVec.ofNat 16 d := by
  have hd : (BitVec.ofNat 8 d).setWidth 16 = BitVec.ofNat 16 d := by bv_omega
  rw [packWord_eq_add, hd]

/-- Settles O55: the operand's range decides between the command's word and the error. -/
theorem operandsOutOfRangeAreAssemblyErrors : Obligations.OperandsOutOfRangeAreAssemblyErrors := by
  refine ⟨fun d hd => ?inRange, fun d hd => ?outOfRange, rfl, rfl, fun w => ?word⟩
  case inRange =>
    have hrange : operandInRange d = true := decide_eq_true (by omega)
    rw [assemble_wellFormed (l := .crcByte d) hrange, assemble_wellFormed (l := .setTmo d) hrange]
    exact ⟨congrArg (fun w => some [w]) (packWord_ofNat hd 2 false),
      congrArg (fun w => some [w]) (packWord_ofNat hd 4 false)⟩
  case outOfRange =>
    have hrange : operandInRange d = false := decide_eq_false (by omega)
    exact ⟨assemble_error hrange, assemble_error hrange⟩
  case word =>
    rw [assemble_wellFormed (l := .word w.toNat) (decide_eq_true w.isLt)]
    simp [wordsOf]

end Sys2Proof.Machine
end

section
/-! The cycle with presented inputs, by what its command makes of the state (40_cycle.md R100 to R110). -/

namespace Sys2Proof.Machine

/-! ## What a command gives -/

theorem acceptInIdle_eq_or (s accepted : State) :
    acceptInIdle s accepted = accepted ∨ acceptInIdle s accepted = s.reject := ite_eq_or_eq ..

/-- Settles O8, command by command: CRC.BYTE by room in the unit, WAIT.READY and SET.TMO by acceptance. -/
theorem everyCommandCompletes : Obligations.EveryCommandCompletes := by
  intro i s
  cases i with
  | nop | crcClr | clrErr => exact ⟨_, rfl, rfl, rfl, rfl, rfl⟩
  | crcByte d =>
    by_cases hroom : s.cnt.toNat < 8
    · exact ⟨_, exec_crcByte_room hroom, rfl, rfl, rfl, rfl⟩
    · exact ⟨_, exec_crcByte_full hroom, rfl, rfl, rfl, rfl⟩
  | waitReady sp =>
    refine ⟨_, rfl, ?_⟩
    rcases acceptInIdle_eq_or s (s.startWait (waitStart sp)) with h | h <;> rw [h] <;> exact ⟨rfl, rfl, rfl, rfl⟩
  | setTmo d =>
    refine ⟨_, rfl, ?_⟩
    rcases acceptInIdle_eq_or s (s.writeTmo (legalTmo d)) with h | h <;> rw [h] <;> exact ⟨rfl, rfl, rfl, rfl⟩

theorem exec_completes (i : Instr) (s : State) : ∃ t, exec i s = .next t :=
  let ⟨t, ht, _⟩ := everyCommandCompletes i s
  ⟨t, ht⟩

theorem consume_completes (inp : Inputs) (s : State) : ∃ t, consume inp s = .next t :=
  let ⟨t, ht, _⟩ := consume_cases inp s
  ⟨t, ht⟩

theorem exec_rejected {c : Instr} {s : State} (hc : idleOnly c) (hi : s.fst ≠ .idle) :
    exec c s = .next s.reject := by
  rcases hc with ⟨sp, rfl⟩ | ⟨d, rfl⟩
  · rw [exec_waitReady, acceptInIdle_busy _ hi]
  · rw [exec_setTmo, acceptInIdle_busy _ hi]

theorem ne_clrErr_of_idleOnly {c : Instr} (h : idleOnly c) : c ≠ .clrErr := by
  rcases h with ⟨sp, rfl⟩ | ⟨d, rfl⟩ <;> nofun

/-- Settles O12: with REJ clear, only a rejection sets it (`exec_flags`). -/
theorem rejectedExactlyOutsideIdle : Obligations.RejectedExactlyOutsideIdle := by
  intro i s hs
  obtain ⟨t, ht⟩ := exec_completes i s
  refine ⟨t, ht, (exec_flags ht).1.trans ⟨fun ⟨_, h⟩ => ?_, fun ⟨hc, hi⟩ => ⟨ne_clrErr_of_idleOnly hc, .inr ⟨hi, hc⟩⟩⟩⟩
  rcases h with hrej | ⟨hi, hc⟩
  · simp [hs] at hrej
  · exact ⟨hc, hi⟩

/-! ## Inputs to come and the command -/

theorem acceptInIdle_present (s accepted : State) (j : Inputs) :
    acceptInIdle (s.present j) (accepted.present j) = (acceptInIdle s accepted).present j :=
  (apply_ite (State.present · j) (s.fst = .idle) accepted s.reject).symm

/-- The inputs to come play no part in a command. -/
theorem exec_present {c : Instr} {s t : State} (j : Inputs) (h : exec c s = .next t) :
    exec c (s.present j) = .next (t.present j) := by
  cases c with
  | nop | crcClr | clrErr => cases h; rfl
  | crcByte d =>
    by_cases hroom : s.cnt.toNat < 8
    · rw [exec_crcByte_room hroom] at h; cases h
      exact exec_crcByte_room hroom
    · rw [exec_crcByte_full hroom] at h; cases h
      exact exec_crcByte_full hroom
  | waitReady sp =>
    cases h
    exact congrArg Host.Outcome.next (acceptInIdle_present s (s.startWait (waitStart sp)) j)
  | setTmo d =>
    cases h
    exact congrArg Host.Outcome.next (acceptInIdle_present s (s.writeTmo (legalTmo d)) j)

theorem consume_present {inp : Inputs} {s t : State} (j : Inputs) (h : consume inp s = .next t) :
    consume inp (s.present j) = .next (t.present j) := by
  cases hv : inp.cmdValid with
  | false =>
    rw [consume_noCommand s hv] at h; cases h
    exact consume_noCommand _ hv
  | true =>
    cases hd : decodeWord inp.cmdWord with
    | illegal why =>
      rw [consume_illegal s hv hd] at h; cases h
      exact consume_illegal _ hv hd
    | command c =>
      rw [consume_command s hv hd] at h
      rw [consume_command _ hv hd]
      exact exec_present j h

/-! ## The cycle with presented inputs -/

/-- The state in which the cycle with inputs `inp` from `s` ends when its command makes `t` of `s` (R100). -/
def cycleEnd (s t : State) (inp : Inputs) : State :=
  ((t.present inp).applyFsm (fsmStep Config.params s inp).1).endCycle (outputs Config.params s inp)

/-- The cycle with the inputs `inp` from `s`, by what its command makes of `s` (R100, R230, R232). -/
theorem step_present_eq {s t : State} {inp : Inputs} (h : consume inp s = .next t) : step (s.present inp) =
    if inp.rst then .next (((s.present inp).loadReset Config.params).endCycle (outputs Config.params s inp))
    else if inLegalRange Config.params s then .next (cycleEnd s t inp)
    else .refused .noResetApplied := by
  rw [step_present, runCycle, consume_present inp h]
  rfl

theorem step_present_legal {s t : State} {inp : Inputs} (hr : inp.rst = false)
    (hl : inLegalRange Config.params s = true) (h : consume inp s = .next t) :
    step (s.present inp) = .next (cycleEnd s t inp) := by
  simp [step_present_eq h, hr, hl]

/-- The cycle without a command, whose other inputs are those of `inp`. -/
theorem step_present_noCommand {s : State} {inp : Inputs} (hr : inp.rst = false)
    (hl : inLegalRange Config.params s = true) :
    step (s.present { inp with cmdValid := false }) = .next (cycleEnd s s inp) :=
  step_present_legal (inp := { inp with cmdValid := false }) hr hl (consume_noCommand s rfl)

/-- Cycles that differ at the command port alone are equal when their commands make the same of the state. -/
theorem step_present_congr_command {s : State} {inp : Inputs} {v : Bool} {w : Word}
    (h : consume { inp with cmdValid := v, cmdWord := w } s = consume inp s) :
    step (s.present { inp with cmdValid := v, cmdWord := w }) = step (s.present inp) := by
  obtain ⟨t, ht⟩ := consume_completes inp s
  rw [step_present_eq ht]
  exact step_present_eq (inp := { inp with cmdValid := v, cmdWord := w }) (h.trans ht)

/-- Settles O5: every command completes, and the cycle adds the FSM's writes and the outputs. -/
theorem stepRunsTheDecodedCommand : Obligations.StepRunsTheDecodedCommand := by
  intro s i hp hl
  obtain ⟨t, ht⟩ := exec_completes i s
  exact ⟨t, ht, runCycle_legal hp.1 hl ((consume_presents s hp).trans ht)⟩

/-- Settles O7: nothing is consumed, whatever the word. -/
theorem cycleWithoutCommand : Obligations.CycleWithoutCommand := by
  intro s inp hr hv hl
  have hnone (w : Word) : consume { inp with cmdWord := w } s = .next s := consume_noCommand s hv
  exact ⟨step_present_legal hr hl (hnone inp.cmdWord),
    fun w => step_present_congr_command ((hnone w).trans (hnone inp.cmdWord).symm)⟩

/-- Settles O13: NOP and no command make the same of the state. -/
theorem nopIsACycleWithoutCommand : Obligations.NopIsACycleWithoutCommand := by
  refine ⟨exec_nop, fun s inp => step_present_congr_command (inp := { inp with cmdValid := false }) ?_⟩
  rw [consume_noCommand (inp := { inp with cmdValid := false }) s rfl]
  exact consume_command s rfl ((decodeExactlyInvertsEncode _ .nop).mpr rfl)

/-- Settles O10: the FSM's writes and the passing of the cycle leave ILL alone. -/
theorem illegalWordSetsIllOnly : Obligations.IllegalWordSetsIllOnly :=
  ⟨fun s _ hp hl => ⟨_, step_present_noCommand hp.1 hl, step_present_legal hp.1 hl (consume_presentsIllegal s hp)⟩,
    _, rfl, by decide⟩

/-- Settles O11: the FSM's writes and the passing of the cycle leave REJ alone. -/
theorem rejectedCommandSetsRejOnly : Obligations.RejectedCommandSetsRejOnly := by
  intro s inp c hp hc hi hl
  have hexec := exec_rejected hc hi
  exact ⟨hexec, _, step_present_noCommand hp.1 hl,
    step_present_legal hp.1 hl ((consume_presents s hp).trans hexec), rfl⟩

/-! ## The register view -/

/-- The layout of CRCST's lower bits (R41), whatever its upper bits. -/
theorem regCrcst_lower_bits (P : Params) (s : State) :
    (regCrcst P s).extractLsb' 0 4 = s.cnt ∧ (regCrcst P s).getLsbD 4 = fullFlag P s := by
  constructor
  · ext i hi
    grind [regCrcst]
  · grind [regCrcst]

/-- The layout of WST (R44). -/
theorem regWst_fields (s : State) :
    (regWst s).extractLsb' 0 3 = s.fst.code ∧ (regWst s).extractLsb' 3 2 = s.res.code ∧
    (regWst s).getLsbD 5 = s.rej ∧ (regWst s).getLsbD 6 = s.ill ∧
    (regWst s).getLsbD 7 = s.fst.isOutstanding := by
  refine ⟨?_, ?_, ?_, ?_, ?_⟩
  · ext i hi
    grind [regWst]
  · ext i hi
    grind [regWst]
  all_goals grind [regWst]

theorem fullFlag_iff (s : State) : fullFlag Config.params s = true ↔ s.cnt = 8 := by
  rw [fullFlag_eight, beq_iff_eq, ← BitVec.toNat_inj]
  rfl

theorem isOutstanding_iff (f : Fst) : f.isOutstanding = true ↔ f = .spWait ∨ f = .rdWait ∨ f = .drain := by
  cases f <;> simp [Fst.isOutstanding]

theorem regCrcres_eq_zeroExtend (P : Params) (s : State) : regCrcres P s = (verdict P s).code.zeroExtend 8 := by
  unfold regCrcres
  cases verdict P s <;> rfl

/-- The read address changes the byte read alone. -/
theorem step_present_rdAddr {s t : State} {inp : Inputs} (a : BitVec 3) (h : step (s.present inp) = .next t) :
    step (s.present { inp with rdAddr := a }) =
      .next { t with out := { t.out with rdData := reg Config.params s a } } := by
  obtain ⟨u, hu⟩ := consume_completes inp s
  rw [step_present_eq hu] at h
  refine (step_present_eq (inp := { inp with rdAddr := a }) hu).trans ?_
  split_ifs at h ⊢ <;> cases h
  · rfl
  · rfl

/-- Settles O37, from the layouts of the three registers with fields and the flags they show. -/
theorem registerReadView : Obligations.RegisterReadView := by
  refine ⟨fun s => ?fields, fun s t h => ?read, fun s t inp a => step_present_rdAddr a⟩
  case read => rw [step_out h, outputs_rdData]
  case fields =>
    obtain ⟨hcnt, hfull⟩ := regCrcst_lower_bits Config.params s
    obtain ⟨hzero, hfamz, hovf⟩ := regCrcst_upper_bits Config.params s
    obtain ⟨hfst, hres, hrej, hill, houtst⟩ := regWst_fields s
    refine ⟨rfl, hcnt, ?full, ?zero, ?famz, hovf, rfl, regCrcres_eq_zeroExtend _ s, hfst, hres, hrej, hill, ?outst,
      rfl, rfl, rfl⟩
    case full => rw [reg_one, hfull, fullFlag_iff]
    case zero => rw [reg_one, hzero, zeroFlag, beq_iff_eq]
    case famz => rw [reg_one, hfamz]; simp [famzFlag]
    case outst => rw [reg_four, houtst, isOutstanding_iff]

/-- Settles O14: the FSM's writes and the passing of the cycle leave REJ and ILL alone, and the other
fields of a WST of 0x60 are 0. -/
theorem clrErrClearsRejAndIll : Obligations.ClrErrClearsRejAndIll := by
  refine ⟨exec_clrErr, fun s inp hp hl => ⟨_, step_present_noCommand hp.1 hl,
    step_present_legal hp.1 hl (consume_presents s hp)⟩, fun s hs => ⟨_, exec_clrErr s, ?_⟩⟩
  obtain ⟨hfst, hres, -, -, houtst⟩ := regWst_fields s
  rw [← reg_four Config.params, hs] at hfst hres houtst
  simp only [reg_four, regWst, clearErrors_fst, clearErrors_res, clearErrors_rej, clearErrors_ill, ← hfst, ← hres,
    ← houtst]
  rfl

/-! ## The two write sets of a cycle -/

/-- Only an accepted WAIT.READY writes ELAP, FST or RES among the commands (R105). -/
theorem consume_keeps_or_starts {inp : Inputs} {s t : State} (h : consume inp s = .next t) :
    (t.elap = s.elap ∧ t.fst = s.fst ∧ t.res = s.res) ∨
    (s.fst = .idle ∧ inp.cmdValid = true ∧ ∃ sp, decodeWord inp.cmdWord = .command (.waitReady sp)) := by
  obtain ⟨u, hu, hc⟩ := consume_cases inp s
  obtain rfl : u = t := by simpa [hu] using h
  rcases hc with ⟨rfl, -⟩ | ⟨-, -, rfl⟩ | ⟨-, -, rfl⟩ | ⟨-, -, rfl⟩ | ⟨d, -, -, -, rfl⟩ | ⟨d, -, -, -, rfl⟩ |
    ⟨sp, hv, hd, hi, -⟩ | ⟨d, -, -, -, rfl⟩ | ⟨c, -, -, -, -, rfl⟩
  case inr.inr.inr.inr.inr.inr.inl => exact .inr ⟨hi, hv, sp, hd⟩
  all_goals exact .inl ⟨rfl, rfl, rfl⟩

/-- An element that is written at most once, by the command (`a` for `b`) or by the FSM (`w`), holds what was written. -/
theorem getD_eq_merge {α : Type} {w : Option α} {a b : α} [Decidable (a ≠ b)] (h : w = none ∨ a = b) :
    w.getD a = if a ≠ b then a else w.getD b := by
  split
  case isTrue hne => rw [h.resolve_right hne, Option.getD_none]
  case isFalse he => rw [not_not.mp he]

/-- Settles O46: in IDLE the FSM writes nothing, and elsewhere the command writes nothing of the FSM's elements. -/
theorem writesOfOneCycleNeverCollide : Obligations.WritesOfOneCycleNeverCollide := by
  intro s t inp h w
  have hidle (hi : s.fst = .idle) : w = ⟨none, none, none, none⟩ := congrArg Prod.fst (fsmStep_idle _ inp hi)
  have hmerge : (w.elap = none ∨ t.elap = s.elap) ∧ (w.fst = none ∨ t.fst = s.fst) ∧ (w.res = none ∨ t.res = s.res) := by
    by_cases hi : s.fst = .idle
    · simp [hidle hi]
    · obtain ⟨-, helap, hfst, hres, -⟩ := consume_keeps_wait h hi
      exact ⟨.inr helap, .inr hfst, .inr hres⟩
  obtain ⟨helap, hfst, hres⟩ := hmerge
  have hstat := consume_stat h
  refine ⟨⟨rfl, rfl, rfl, rfl⟩, hidle, fun hwrite => ?starts, hstat, getD_eq_merge helap, getD_eq_merge hfst,
    getD_eq_merge hres, congrArg w.stat.getD hstat⟩
  rcases consume_keeps_or_starts h with ⟨he, hf, hr⟩ | hstart
  · simp [he, hf, hr] at hwrite
  · exact hstart

end Sys2Proof.Machine
end

section
/-! The byte step T8 (41_crc8.md R120 to R123): linear, a bijection, equal to the serial steps, to the XOR equations and
to the table. -/

namespace Sys2Proof.Machine

/-! ## One division step -/

theorem getLsbD_step0 (P : Params) (x : Byte) (i : Nat) :
    (step0 P x).getLsbD i = (x.getLsbD (i + 1) ^^ (x.getLsbD 0 && P.polyRefl.getLsbD i)) := by
  unfold step0
  split <;> simp_all [Nat.add_comm]

theorem step0_xor (P : Params) (a b : Byte) : step0 P (a ^^^ b) = step0 P a ^^^ step0 P b := by
  refine BitVec.eq_of_getLsbD_eq fun i _ => ?_
  simp only [BitVec.getLsbD_xor, getLsbD_step0, Bool.and_xor_distrib_right, Bool.xor_assoc, Bool.xor_left_comm]

theorem step0_zero (P : Params) : step0 P 0#8 = 0#8 := rfl

/-- With the polynomial's bit 7 set, bit 7 of the result is the bit shifted out. -/
theorem step0_injective {P : Params} (h : P.polyRefl.getLsbD 7 = true) : Function.Injective (step0 P) := by
  intro x y hxy
  have hbit (i : Nat) : (x.getLsbD (i + 1) ^^ (x.getLsbD 0 && P.polyRefl.getLsbD i)) =
      (y.getLsbD (i + 1) ^^ (y.getLsbD 0 && P.polyRefl.getLsbD i)) := by
    rw [← getLsbD_step0, ← getLsbD_step0, hxy]
  have hlow : x.getLsbD 0 = y.getLsbD 0 := by
    simpa only [h, Bool.and_true, BitVec.getLsbD_of_ge _ (7 + 1) le_rfl, Bool.false_xor] using hbit 7
  refine BitVec.eq_of_getLsbD_eq fun i _ => ?_
  cases i with
  | zero => exact hlow
  | succ i => exact Bool.xor_left_inj.mp (hlow ▸ hbit i)

/-- A serial bit step takes the lowest bit of `d`; the other bits of `d` come one place nearer. -/
theorem step0_xor_eq_bitStep (P : Params) (c d : Byte) :
    step0 P (c ^^^ d) = bitStep P c (d.getLsbD 0) ^^^ (d >>> 1) := by
  unfold step0 bitStep
  rw [BitVec.getLsbD_xor, BitVec.ushiftRight_xor_distrib]
  split
  · ac_rfl
  · rfl

/-! ## Eight division steps -/

theorem t8_xor (P : Params) (a b : Byte) : t8 P (a ^^^ b) = t8 P a ^^^ t8 P b := by
  simp only [t8, step0_xor]

@[simp] theorem t8_zero (P : Params) : t8 P 0#8 = 0#8 := by
  simp only [t8, step0_zero]

theorem t8_injective : Function.Injective (t8 Config.params) := (step0_injective rfl).iterate 8

theorem t8_xor_eq_crcSerial (P : Params) (c d : Byte) : t8 P (c ^^^ d) = crcSerial P c d := by
  have hout : d >>> 8 = 0 := BitVec.ushiftRight_eq_zero le_rfl
  simp [t8, step0_xor_eq_bitStep, crcSerial, bitsLsbFirst, hout, ← BitVec.shiftRight_add]

/-- Settles O17: eight times `step0_xor_eq_bitStep`; on bytes, injective is bijective. -/
theorem byteStepEqualsEightBitSteps : Obligations.ByteStepEqualsEightBitSteps :=
  ⟨t8_xor_eq_crcSerial, Finite.injective_iff_bijective.mp t8_injective, t8_zero⟩

/-! ## A linear function is given by its images of the single bits -/

/-- The bits of `x` at the positions `is`, joined by XOR. -/
def xorOfBits (x : Byte) (is : List Nat) : Byte :=
  is.foldr (fun i rest => (if x.getLsbD i then 1#8 <<< i else 0) ^^^ rest) 0

theorem xorOfBits_range : ∀ x : Byte, xorOfBits x (List.range 8) = x := by
  decide

theorem map_zero_of_xor {f : Byte → Byte} (hf : ∀ a b, f (a ^^^ b) = f a ^^^ f b) : f 0 = 0 := by
  simpa using hf 0 0

/-- Linear functions that agree on the single bits of a set of positions agree on any bits at these positions. -/
theorem map_xorOfBits_congr {f g : Byte → Byte} (hf : ∀ a b, f (a ^^^ b) = f a ^^^ f b)
    (hg : ∀ a b, g (a ^^^ b) = g a ^^^ g b) (x : Byte) {is : List Nat}
    (h : ∀ i ∈ is, f (1#8 <<< i) = g (1#8 <<< i)) : f (xorOfBits x is) = g (xorOfBits x is) := by
  have hzero : f 0 = g 0 := (map_zero_of_xor hf).trans (map_zero_of_xor hg).symm
  induction is with
  | nil => exact hzero
  | cons i is ih =>
    obtain ⟨hi, his⟩ := List.forall_mem_cons.mp h
    simp only [xorOfBits, List.foldr_cons, hf, hg]
    refine congrArg₂ _ ?_ (ih his)
    split
    · exact hi
    · exact hzero

/-- XOR acts on each appended bit by itself; the outermost append needs its widths, since its result is typed as 8 bits
wide and not as a sum. -/
theorem t8Equations_xor (a b : Byte) : t8Equations (a ^^^ b) = t8Equations a ^^^ t8Equations b := by
  simp only [t8Equations]
  refine Eq.trans ?_ (BitVec.xor_append (w := 1 + 1 + 1 + 1 + 1 + 1 + 1) (v := 1)).symm
  simp only [BitVec.xor_append, BitVec.ofBool_xor_ofBool, BitVec.getLsbD_xor, Bool.xor_assoc, Bool.xor_left_comm]

theorem t8_eq_t8Equations (x : Byte) : t8 Config.params x = t8Equations x := by
  have hbits : ∀ i ∈ List.range 8, t8 Config.params (1#8 <<< i) = t8Equations (1#8 <<< i) := by decide
  rw [← xorOfBits_range x]
  exact map_xorOfBits_congr (t8_xor Config.params) t8Equations_xor x hbits

/-- Settles O18: T8 and the equations are linear, so the eight single bits decide. -/
theorem byteStepByXorEquations : Obligations.ByteStepByXorEquations :=
  ⟨t8_eq_t8Equations, by decide, t8_xor⟩

/-- The entries of R123, row by row. -/
theorem t8Table_eq_t8 : ∀ x : Byte, t8Table x = t8 Config.params x := by
  decide

/-- Settles O19, entry by entry for T8, and by O18 for the equations. -/
theorem byteStepByTable : Obligations.ByteStepByTable :=
  fun x => ⟨t8Table_eq_t8 x, (t8Table_eq_t8 x).trans (t8_eq_t8Equations x)⟩

end Sys2Proof.Machine
end

section
/-! CRC.CLR and CRC.BYTE (41_crc8.md R124 to R127), and the properties of a checked identifier (R128 to R131). -/

namespace Sys2Proof.Machine

/-! ## CRC.CLR and CRC.BYTE -/

theorem famzFlag_takeByte_first {s : State} (h : s.cnt = 0) (r : Byte) : famzFlag (s.takeByte r 0) = true := by
  simp [famzFlag, h]

theorem fullFlag_takeByte_eighth {s : State} (h : s.cnt = 7) (r d : Byte) :
    fullFlag Config.params (s.takeByte r d) = true := by
  simp [fullFlag_eight, h]

theorem verdict_ne_incomplete {s : State} (h : 8 ≤ s.cnt.toNat) : verdict Config.params s ≠ .incomplete := by
  rw [verdict_eight, if_neg h.not_gt]
  split_ifs <;> nofun

/-- The CRC unit's registers read nothing but the unit. -/
theorem reg_congr_crcUnit {s s' : State} (h : s.crcUnit = s'.crcUnit) (P : Params) :
    ∀ a ∈ [0#3, 1#3, 2#3, 3#3], reg P s a = reg P s' a := by
  obtain ⟨hcrc, hcnt, hfam, hovf⟩ := crcUnit_eq_iff.mp h
  simp [regCrcst, regCrcres, verdict, fullFlag, zeroFlag, famzFlag, hcrc, hcnt, hfam, hovf]

/-- Settles O15: the unit is then that of the start state. -/
theorem crcClrClearsTheUnit : Obligations.CrcClrClearsTheUnit := by
  intro s
  have hreg := reg_congr_crcUnit (show (s.clearCrc Config.params).crcUnit = State.reset.crcUnit from rfl) Config.params
  refine ⟨_, exec_crcClr s, rfl, ?_⟩
  rw [hreg 1#3 (by decide), hreg 3#3 (by decide)]
  decide

/-- Settles O16, from CRC.BYTE with room and without, and the bits of CRCST after it; the example's registers are those
of the same byte fed from the start state. -/
theorem crcByteFeedsOrOverruns : Obligations.CrcByteFeedsOrOverruns := by
  refine ⟨fun d s hn => exec_crcByte_room hn, fun d s hn => exec_crcByte_full (by simp [hn]),
    fun s hc hn => ⟨_, exec_crcByte_room hn, ?zero⟩, fun s hn => ⟨_, exec_crcByte_room (by simp [hn]), ?first⟩,
    fun d s hn => ⟨_, exec_crcByte_room (by simp [hn]), ?eighth⟩, fun s hs => ?fed28⟩
  case zero => simp [crcNext, hc]
  case first =>
    obtain ⟨-, hfamz, -⟩ := regCrcst_upper_bits Config.params (s.takeByte (crcNext Config.params s.crc 0) 0)
    exact ⟨if_pos hn, hfamz.trans (famzFlag_takeByte_first hn _)⟩
  case eighth =>
    obtain ⟨-, hfull⟩ := regCrcst_lower_bits Config.params (s.takeByte (crcNext Config.params s.crc d) d)
    exact ⟨hfull.trans (fullFlag_takeByte_eighth hn _ d), verdict_ne_incomplete (by simp [hn])⟩
  case fed28 =>
    obtain ⟨t, ht⟩ := exec_completes (.crcByte 0x28) s
    have hunit : t.crcUnit = (State.reset.takeByte 0xE1 0x28).crcUnit :=
      exec_crcUnit_congr (s' := State.reset) hs ht (exec_crcByte_room (by decide))
    have hreg := reg_congr_crcUnit hunit Config.params
    refine ⟨t, ht, ?_⟩
    rw [hreg 0#3 (by decide), hreg 1#3 (by decide), hreg 2#3 (by decide)]
    decide

/-! ## Checking the bytes of an identifier -/

theorem execAll_cons {c : Instr} {s t : State} (h : exec c s = .next t) (cs : List Instr) :
    execAll (c :: cs) s = execAll cs t := by
  simp [execAll, h]

/-- CRC.BYTE for each of `bs` adds them to the bytes the unit holds. -/
theorem execAll_crcBytes_unitOf (bs : List Byte) {s : State} {held : List Byte}
    (hs : s.crcUnit = unitOf Config.params held) :
    ∃ t, execAll (bs.map .crcByte) s = .next t ∧ t.crcUnit = unitOf Config.params (held ++ bs) := by
  induction bs generalizing s held with
  | nil => exact ⟨s, rfl, by rw [List.append_nil, hs]⟩
  | cons b bs ih =>
    obtain ⟨u, hu⟩ := exec_completes (.crcByte b) s
    rw [List.map_cons, execAll_cons hu, List.append_cons]
    exact ih (exec_crcByte_unitOf hs hu)

/-- After CRC.CLR and a CRC.BYTE for each of `bs` the unit holds `bs`. -/
theorem execAll_checkCommands (bs : List Byte) (s : State) :
    ∃ t, execAll (checkCommands bs) s = .next t ∧ t.crcUnit = unitOf Config.params bs := by
  rw [checkCommands, execAll_cons (exec_crcClr s)]
  exact execAll_crcBytes_unitOf bs (held := []) rfl

theorem crc_of_unitOf {s : State} {bs : List Byte} (h : s.crcUnit = unitOf Config.params bs) (hn : bs.length ≤ 8) :
    s.crc = remainder Config.params 0 bs := by
  rw [(crcUnit_eq_unitOf h).1, List.take_of_length_le hn]

/-- The verdict on eight bytes. -/
theorem verdict_of_unitOf {s : State} {bs : List Byte} (h : s.crcUnit = unitOf Config.params bs) (hn : bs.length = 8) :
    verdict Config.params s = if bs.headD 0 = 0 then .romInvalid
      else if remainder Config.params 0 bs ≠ 0 then .crcMismatch else .valid := by
  obtain ⟨-, hcnt, hfam, -⟩ := crcUnit_eq_unitOf h
  rw [verdict_eight, if_neg (by omega), hfam, crc_of_unitOf h hn.le]

/-! ## Remainders -/

theorem crcNext_injective_left (d : Byte) : Function.Injective (crcNext Config.params · d) :=
  fun _ _ h => (BitVec.xor_left_inj d).mp (t8_injective h)

theorem crcNext_injective_right (c : Byte) : Function.Injective (crcNext Config.params c) :=
  fun _ _ h => (BitVec.xor_right_inj c).mp (t8_injective h)

theorem remainder_cons (P : Params) (c b : Byte) (bs : List Byte) :
    remainder P c (b :: bs) = remainder P (crcNext P c b) bs := rfl

theorem remainder_append (P : Params) (c : Byte) (bs bs' : List Byte) :
    remainder P c (bs ++ bs') = remainder P (remainder P c bs) bs' := List.foldl_append ..

/-- A message with its own check byte leaves T8 of 0x00. -/
theorem remainder_append_check (P : Params) (c : Byte) (bs : List Byte) :
    remainder P c (bs ++ [remainder P c bs]) = 0 := by
  rw [remainder_append_singleton, crcNext, BitVec.xor_self, t8_zero]
  rfl

theorem remainder_injective (bs : List Byte) : Function.Injective (remainder Config.params · bs) := by
  induction bs with
  | nil => exact Function.injective_id
  | cons b bs ih => exact ih.comp (crcNext_injective_left b)

/-- Settles O23: T8 is injective, so different remainders stay different through every byte. -/
theorem zeroRemainderForAnyInitialValue : Obligations.ZeroRemainderForAnyInitialValue :=
  ⟨remainder_append_check, fun bs _ _ hc => (remainder_injective bs).ne hc, params_crcInit⟩

/-- A changed byte changes the remainder where it is fed, and the later bytes keep the difference. -/
theorem remainder_modify_ne {f : Byte → Byte} (hf : ∀ b, f b ≠ b) {bs : List Byte} {i : Nat} (hi : i < bs.length)
    (c : Byte) : remainder Config.params c (bs.modify i f) ≠ remainder Config.params c bs := by
  obtain ⟨before, b, after, hbs, -, hmodify⟩ := List.exists_of_modify f hi
  rw [hmodify, hbs, remainder_append, remainder_append, remainder_cons, remainder_cons]
  exact (remainder_injective after).ne ((crcNext_injective_right _).ne (hf b))

/-- Settles O21: the eighth byte is the remainder of the seven. -/
theorem sevenBytesGiveTheCheckByte : Obligations.SevenBytesGiveTheCheckByte := by
  intro bs s hn
  obtain ⟨t, ht, htu⟩ := execAll_checkCommands bs s
  obtain ⟨u, hu, huu⟩ := execAll_checkCommands (bs ++ [t.crc]) s
  have hlen : (bs ++ [t.crc]).length = 8 := by simp [hn]
  have hhead : (bs ++ [t.crc]).headD 0 = bs.headD 0 := by
    cases bs with
    | nil => simp at hn
    | cons b bs => rfl
  have hzero : remainder Config.params 0 (bs ++ [t.crc]) = 0 := by
    rw [crc_of_unitOf htu (by omega), remainder_append_check]
  refine ⟨t, ht, u, hu, (crc_of_unitOf huu hlen.le).trans hzero, ?_⟩
  rw [verdict_of_unitOf huu hlen, hhead, hzero]
  simp

/-! ## Single-bit errors -/

theorem xor_singleBit_ne {j : Nat} (hj : j < 8) (b : Byte) : b ^^^ 1#8 <<< j ≠ b := by
  have hbit : ∀ i < 8, 1#8 <<< i ≠ 0 := by decide
  intro h
  exact hbit j hj ((BitVec.xor_right_inj b).mp (h.trans BitVec.xor_zero.symm))

/-- Settles O22: the flip changes one byte, so it changes the remainder from the zero it was. -/
theorem singleBitErrorsAreDetected : Obligations.SingleBitErrorsAreDetected := by
  intro bs k s t hn hk ht hzero
  obtain ⟨t', ht', htu⟩ := execAll_checkCommands bs s
  obtain rfl : t' = t := by simpa [ht'] using ht
  obtain ⟨u, hu, huu⟩ := execAll_checkCommands (flipBit k bs) s
  have hlen : (flipBit k bs).length = 8 := (List.length_modify ..).trans hn
  have hbyte : k / 8 < bs.length := by omega
  have hrem : remainder Config.params 0 bs = 0 := (crc_of_unitOf htu hn.le).symm.trans hzero
  have hne : remainder Config.params 0 (flipBit k bs) ≠ 0 :=
    (remainder_modify_ne (xor_singleBit_ne (Nat.mod_lt k (by decide))) hbyte 0).trans_eq hrem
  refine ⟨u, hu, ?_, ?_⟩
  · rwa [crc_of_unitOf huu hlen.le]
  · rw [verdict_of_unitOf huu hlen, if_pos hne]

end Sys2Proof.Machine
end

section
/-! The wait FSM's part of a cycle (42_busy_poll.md R163 to R173): its write set in each state and case, what a completed
cycle then shows of it, and the statements about one cycle. -/

namespace Sys2Proof.Machine

/-! ## The write set, case by case -/

/-- A wait that holds a request, with the state that awaits the response (R167). -/
theorem fsmStep_request (P : Params) {s : State} {w : Fst} (inp : Inputs)
    (h : s.fst = .spReq ∧ w = .spWait ∨ s.fst = .rdReq ∧ w = .rdWait) :
    fsmStep P s inp = requestStep (tickWrite s inp) (deadlineHit s inp) inp.xreqReady w := by
  rcases h with ⟨hf, rfl⟩ | ⟨hf, rfl⟩
  · exact fsmStep_spReq P inp hf
  · exact fsmStep_rdReq P inp hf

/-- An error response ends the wait, at the deadline too (R168, R169). -/
theorem fsmStep_error (P : Params) {s : State} {inp : Inputs} (h : s.fst = .spWait ∨ s.fst = .rdWait)
    (hv : inp.xrspValid = true) (he : inp.xrspErr = true) :
    fsmStep P s inp = endWait (tickWrite s inp) none .xerr .idle := by
  rcases h with hf | hf <;> simp [fsmStep, hf, hv, he]

/-- Without a response a wait goes on, or leaves its transaction to DRAIN at the deadline (R168, R169). -/
theorem fsmStep_silent (P : Params) {s : State} {inp : Inputs} (h : s.fst = .spWait ∨ s.fst = .rdWait)
    (hv : inp.xrspValid = false) : fsmStep P s inp =
      if deadlineHit s inp then endWait (tickWrite s inp) none .timeout .drain
      else goOn (tickWrite s inp) none none := by
  rcases h with hf | hf <;> simp [fsmStep, hf, hv]

theorem fsmStep_spWait_response (P : Params) {s : State} {inp : Inputs} (hf : s.fst = .spWait)
    (hv : inp.xrspValid = true) (he : inp.xrspErr = false) : fsmStep P s inp =
      if deadlineHit s inp then endWait (tickWrite s inp) none .timeout .idle
      else goOn (tickWrite s inp) none (some .rdReq) := by
  simp [fsmStep, hf, hv, he]

theorem fsmStep_rdWait_ready (P : Params) {s : State} {inp : Inputs} (hf : s.fst = .rdWait)
    (hv : inp.xrspValid = true) (he : inp.xrspErr = false) (hb : isBusy P inp.xrspData = false) :
    fsmStep P s inp = endWait (tickWrite s inp) (some inp.xrspData) .ready .idle := by
  simp [fsmStep, hf, hv, he, hb]

theorem fsmStep_rdWait_busy (P : Params) {s : State} {inp : Inputs} (hf : s.fst = .rdWait)
    (hv : inp.xrspValid = true) (he : inp.xrspErr = false) (hb : isBusy P inp.xrspData = true) : fsmStep P s inp =
      if deadlineHit s inp then endWait (tickWrite s inp) (some inp.xrspData) .timeout .idle
      else goOn (tickWrite s inp) (some inp.xrspData) (some .rdReq) := by
  simp [fsmStep, hf, hv, he, hb]

/-- In every state the FSM writes ELAP to count a tick and for nothing else (R165). -/
theorem fsmStep_elap (P : Params) (s : State) (inp : Inputs) : (fsmStep P s inp).1.elap = tickWrite s inp := by
  rcases fsmStep_cases P s inp with ⟨ha, -, hw | ⟨-, -, hw⟩⟩ | ⟨-, -, f, st, hw, -, -⟩ | ⟨-, -, g, st, hw, -, -⟩ |
    ⟨-, -, -, -, hw⟩ | ⟨-, -, -, hw⟩ <;> rw [hw]
  all_goals simp [tickWrite, countsTick, ha]

/-- The FSM marks `done` exactly when it leaves the active states. -/
theorem fsmStep_done_iff_ends (P : Params) (s : State) (inp : Inputs) :
    (fsmStep P s inp).2 = true ↔ s.fst.isActive = true ∧ (fsmNext P s inp).isActive = false := by
  rcases fsmStep_cases P s inp with ⟨ha, hd, -⟩ | ⟨ha, -, f, st, hw, hf, -⟩ | ⟨ha, -, g, st, hw, hg, -⟩ |
    ⟨hf, -, -, -, hw⟩ | ⟨hf, -, -, hw⟩
  · simp [ha, hd]
  · have hnext : (fsmNext P s inp).isActive = true := by
      rcases hf with rfl | ⟨g, rfl, hg⟩ <;> simpa [fsmNext, hw]
    simp [hw, hnext]
  · have hnext : (fsmNext P s inp).isActive = false := by
      rcases hg with rfl | rfl <;> simp [fsmNext, hw, Fst.isActive]
    simp [hw, ha, hnext]
  · simp [fsmNext, hw, hf, Fst.isActive]
  · rcases hf with hf | hf <;> simp [fsmNext, hw, hf, Fst.isActive]

/-- With no transaction outstanding the FSM does not look at the response (R163). -/
theorem fsmStep_ignores_response (P : Params) {s : State} (inp : Inputs) (v e : Bool) (d : Byte)
    (h : s.fst.isOutstanding = false) :
    fsmStep P s { inp with xrspValid := v, xrspErr := e, xrspData := d } = fsmStep P s inp := by
  cases hf : s.fst with
  | idle => rw [fsmStep_idle P _ hf, fsmStep_idle P _ hf]
  | spReq => rw [fsmStep_spReq P _ hf, fsmStep_spReq P _ hf]; rfl
  | rdReq => rw [fsmStep_rdReq P _ hf, fsmStep_rdReq P _ hf]; rfl
  | spWait | rdWait | drain => simp [hf, Fst.isOutstanding] at h

/-! ## What a completed cycle shows of it -/

theorem step_completes {s : State} (hl : inLegalRange Config.params s = true) : ∃ t, step s = .next t := by
  cases hr : s.nextInputs.rst with
  | true => exact ⟨_, runCycle_reset hr⟩
  | false =>
    obtain ⟨u, hu⟩ := consume_completes s.nextInputs s
    exact ⟨_, runCycle_legal hr hl hu⟩

theorem ne_idle_of_active {f : Fst} (h : f.isActive = true) : f ≠ .idle := by
  rintro rfl
  simp [Fst.isActive] at h

theorem step_done {s t : State} (h : step s = .next t) :
    t.out.done = (!s.nextInputs.rst && (fsmStep Config.params s s.nextInputs).2) := by
  rw [step_out h, outputs_done]

/-- Outside IDLE the wait FSM's elements and `done` are as the FSM's own write set `x` has them, whatever the command. -/
theorem step_busy {s t : State} {x : FsmWrites × Bool} (h : step s = .next t) (hr : s.nextInputs.rst = false)
    (hi : s.fst ≠ .idle) (hx : fsmStep Config.params s s.nextInputs = x) :
    t.waitUnit = (s.applyFsm x.1).waitUnit ∧ t.out.done = x.2 := by
  subst hx
  refine ⟨?_, by simp [step_done h, hr]⟩
  rcases step_cases h with ⟨hr', -⟩ | ⟨-, -, u, hu, rfl⟩
  · simp [hr] at hr'
  · exact waitUnit_applyFsm_congr _ (waitUnit_eq_iff.mpr (consume_keeps_wait hu hi))

/-- `step_busy` for FST, RES and `done`. -/
theorem step_busy_shows {s t : State} {x : FsmWrites × Bool} (h : step s = .next t) (hr : s.nextInputs.rst = false)
    (hi : s.fst ≠ .idle) (hx : fsmStep Config.params s s.nextInputs = x) :
    t.fst = x.1.fst.getD s.fst ∧ t.res = x.1.res.getD s.res ∧ t.out.done = x.2 := by
  obtain ⟨hunit, hdone⟩ := step_busy h hr hi hx
  obtain ⟨-, -, hfst, hres, -⟩ := waitUnit_eq_iff.mp hunit
  exact ⟨hfst, hres, hdone⟩

/-- Outside IDLE TMO is kept, and ELAP is written by the tick count alone (R31, R165). -/
theorem step_busy_counts {s t : State} (h : step s = .next t) (hr : s.nextInputs.rst = false) (hi : s.fst ≠ .idle) :
    t.tmo = s.tmo ∧ t.elap = elapNext s s.nextInputs := by
  obtain ⟨htmo, helap, -⟩ := waitUnit_eq_iff.mp (step_busy h hr hi rfl).1
  exact ⟨htmo, helap.trans (by rw [applyFsm_elap, fsmStep_elap]; rfl)⟩

/-- In IDLE a cycle is its command (R173). -/
theorem step_idle {s t : State} (h : step s = .next t) (hr : s.nextInputs.rst = false) (hi : s.fst = .idle) :
    ∃ u, consume s.nextInputs s = .next u ∧ t = u.endCycle (outputs Config.params s s.nextInputs) := by
  rcases step_cases h with ⟨hr', -⟩ | ⟨-, -, u, hu, rfl⟩
  · simp [hr] at hr'
  · exact ⟨u, hu, by rw [fsmStep_idle _ _ hi]; rfl⟩

/-- In IDLE a cycle without WAIT.READY keeps the last wait's ELAP, FST, RES and STAT. -/
theorem step_idle_keeps {s t : State} (h : step s = .next t) (hr : s.nextInputs.rst = false) (hi : s.fst = .idle)
    (hw : ∀ sp, ¬ presents s.nextInputs (.waitReady sp)) :
    t.elap = s.elap ∧ t.fst = s.fst ∧ t.res = s.res ∧ t.stat = s.stat := by
  obtain ⟨u, hu, rfl⟩ := step_idle h hr hi
  rcases consume_keeps_or_starts hu with ⟨helap, hfst, hres⟩ | ⟨-, hv, sp, hd⟩
  · have hstat : u.stat = s.stat := consume_stat hu
    exact ⟨helap, hfst, hres, hstat⟩
  · exact absurd ⟨hr, hv, hd⟩ (hw sp)

/-- STAT is kept by a cycle that is not a successful status read (R30). -/
theorem step_keeps_stat {s t : State} (h : step s = .next t) (hr : s.nextInputs.rst = false)
    (hn : ¬(s.fst = .rdWait ∧ s.nextInputs.xrspValid = true ∧ s.nextInputs.xrspErr = false)) : t.stat = s.stat := by
  rw [statHoldsTheLastStatusRead s t h, if_neg (by simp [hr]), if_neg hn]

/-! ## Ticks (R165) -/

theorem elapNext_eq (s : State) (inp : Inputs) : elapNext s inp = if countsTick s inp then s.elap + 1 else s.elap := by
  cases hc : countsTick s inp <;> simp [elapNext, tickWrite, hc]

/-- Settles O28: a wait that is not active is IDLE, where only WAIT.READY writes ELAP, or DRAIN, where the FSM counts no
tick. -/
theorem ticksCountInActiveWaitsOnly : Obligations.TicksCountInActiveWaitsOnly := by
  intro s hr hl
  obtain ⟨t, ht⟩ := step_completes hl
  refine ⟨deadlineHit_iff s s.nextInputs, fun ha => ⟨t, ht, ?_⟩, fun ha hw => ⟨t, ht, ?_⟩⟩
  · simp [(step_busy_counts ht hr (ne_idle_of_active ha)).2, elapNext_eq, countsTick, ha]
  · by_cases hi : s.fst = .idle
    · exact (step_idle_keeps ht hr hi hw).1
    · simp [(step_busy_counts ht hr hi).2, elapNext_eq, countsTick, ha]

/-! ## State by state -/

/-- Settles O29 from the one write set of both request states. -/
theorem requestStatesByHandshakeAndDeadline : Obligations.RequestStatesByHandshakeAndDeadline := by
  intro s w hf hr hl
  obtain ⟨t, ht⟩ := step_completes hl
  have hi : s.fst ≠ .idle := by rcases hf with ⟨hf, -⟩ | ⟨hf, -⟩ <;> simp [hf]
  have hn : s.fst ≠ .rdWait := by rcases hf with ⟨hf, -⟩ | ⟨hf, -⟩ <;> simp [hf]
  have hshows := step_busy_shows ht hr hi (fsmStep_request _ _ hf)
  refine ⟨t, ht, (step_busy_counts ht hr hi).1, step_keeps_stat ht hr (hn ·.1), ?_, ?_, ?_, ?_⟩ <;>
    intro hh ha <;> simpa [requestStep, endWait, goOn, hh, ha] using hshows

/-- Settles O30, response by response. -/
theorem setPointerWaitByResponseAndDeadline : Obligations.SetPointerWaitByResponseAndDeadline := by
  intro s hf hr hl
  obtain ⟨t, ht⟩ := step_completes hl
  have hi : s.fst ≠ .idle := by simp [hf]
  refine ⟨t, ht, (step_busy_counts ht hr hi).1, step_keeps_stat ht hr (by simp [hf]), fun hv he => ?error,
    fun hv he hh => ?goesOn, fun hv he hh => ?late, fun hv hh => ?drained, fun hv hh => ?stays⟩
  case error => exact step_busy_shows ht hr hi (fsmStep_error _ (.inl hf) hv he)
  case goesOn | late =>
    simpa [hh, endWait, goOn] using step_busy_shows ht hr hi (fsmStep_spWait_response _ hf hv he)
  case drained | stays =>
    simpa [hh, hf, endWait, goOn] using step_busy_shows ht hr hi (fsmStep_silent _ (.inl hf) hv)

/-- Settles O31, response by response, a successful one by its busy bit. -/
theorem pollWaitByResponseBusyAndDeadline : Obligations.PollWaitByResponseBusyAndDeadline := by
  intro s hf hr hl
  obtain ⟨t, ht⟩ := step_completes hl
  have hi : s.fst ≠ .idle := by simp [hf]
  have hstat := statHoldsTheLastStatusRead s t ht
  simp only [hr, hf, Bool.false_eq_true, if_false, true_and] at hstat
  refine ⟨t, ht, (step_busy_counts ht hr hi).1, fun hv he => ?error,
    fun hv he => ⟨by simpa [hv, he] using hstat, fun hb => ?ready, fun hb hh => ?polls, fun hb hh => ?late⟩,
    fun hv hh => ?drained, fun hv hh => ?stays⟩
  case error =>
    obtain ⟨hfst, hres, hdone⟩ := step_busy_shows ht hr hi (fsmStep_error _ (.inr hf) hv he)
    exact ⟨hfst, hres, by simpa [he] using hstat, hdone⟩
  case ready => exact step_busy_shows ht hr hi (fsmStep_rdWait_ready _ hf hv he hb)
  case polls | late => simpa [hh, endWait, goOn] using step_busy_shows ht hr hi (fsmStep_rdWait_busy _ hf hv he hb)
  case drained | stays =>
    have hkeep : t.stat = s.stat := by simpa [hv] using hstat
    simpa [hh, hf, hkeep, endWait, goOn] using step_busy_shows ht hr hi (fsmStep_silent _ (.inr hf) hv)

/-- Settles O32: the FSM writes FST alone, and by the invariant the timeout stands in RES. -/
theorem drainDiscardsTheResponse : Obligations.DrainDiscardsTheResponse := by
  intro s hs hf hr
  obtain ⟨t, ht⟩ := step_completes_of_inv hs
  have hi : s.fst ≠ .idle := by simp [hf]
  obtain ⟨hunit, hdone⟩ := step_busy ht hr hi (fsmStep_drain _ _ hf)
  obtain ⟨htmo, helap, hfst, hres, hstat⟩ := waitUnit_eq_iff.mp hunit
  have htimeout := (hs.drain_after_timeout hf).1
  refine ⟨t, ht, ?_, hres.trans htimeout, htimeout, hstat, helap, htmo, hdone, fun c hc hidle => ?_⟩
  · rw [hfst]
    cases hv : s.nextInputs.xrspValid
    · exact hf
    · rfl
  · have hne : ¬ presents s.nextInputs .clrErr := fun h => ne_clrErr_of_idleOnly hidle (presents_unique hc h)
    exact (stickyFlagsSetAndCleared s t ht).1.mpr ⟨hr, hne, .inr ⟨hi, c, hc, hidle⟩⟩

/-- Settles O33: the FSM's write set in IDLE is empty, so the cycle is its command. -/
theorem idleFsmWritesNothing : Obligations.IdleFsmWritesNothing := by
  intro s hi
  refine ⟨fun inp => ⟨fsmStep_idle _ inp hi, by simp [hi, Fst.isRequesting]⟩, fun hr hw hl => ?_⟩
  obtain ⟨t, ht⟩ := step_completes hl
  obtain ⟨helap, hfst, hres, hstat⟩ := step_idle_keeps ht hr hi hw
  exact ⟨t, ht, hfst.trans hi, helap, hres, hstat⟩

/-! ## Stray responses -/

/-- Settles O34: the command, the FSM and the outputs are the same, and nothing else of a cycle reads its inputs. -/
theorem strayResponsesAreIgnored : Obligations.StrayResponsesAreIgnored := by
  intro s inp v e d hsp hrd hdrain
  have hno : s.fst.isOutstanding = false := by
    rw [← Bool.not_eq_true, isOutstanding_iff]
    simp [hsp, hrd, hdrain]
  have hfsm := fsmStep_ignores_response Config.params inp v e d hno
  have hout : outputs Config.params s { inp with xrspValid := v, xrspErr := e, xrspData := d } =
      outputs Config.params s inp := by
    simp only [outputs, hfsm]
  obtain ⟨t, ht⟩ := consume_completes inp s
  have ht' : consume { inp with xrspValid := v, xrspErr := e, xrspData := d } s = .next t := ht
  rw [step_present_eq ht, step_present_eq ht', cycleEnd, cycleEnd, hfsm, hout]
  rfl

/-! ## The end of a wait -/

/-- A result the FSM writes stands in RES after the cycle. -/
theorem step_res_written {s t : State} {r : Res} (h : step s = .next t) (hr : s.nextInputs.rst = false)
    (hw : (fsmStep Config.params s s.nextInputs).1.res = some r) : t.res = r := by
  rcases step_cases h with ⟨hr', -⟩ | ⟨-, -, u, -, rfl⟩
  · simp [hr] at hr'
  · simp [hw]

/-- `done` means that the FSM has written a result, which then stands in RES. -/
theorem done_iff_result {s t : State} (h : step s = .next t) : t.out.done = true ↔ (s.nextInputs.rst = false ∧
    ∃ r, (fsmStep Config.params s s.nextInputs).1.res = some r ∧ r ≠ .none ∧ t.res = r) := by
  rw [step_done h, Bool.and_eq_true, Bool.not_eq_true', fsmStep_done_iff]
  exact and_congr_right fun hr => exists_congr fun r => and_congr_right fun hw =>
    (and_iff_left (step_res_written h hr hw)).symm

/-- `done` means that an active wait has ended, other than by reset. -/
theorem done_iff_ends {s t : State} (h : step s = .next t) :
    t.out.done = true ↔ (s.nextInputs.rst = false ∧ s.fst.isActive = true ∧ t.fst.isActive = false) := by
  rw [step_done h, Bool.and_eq_true, Bool.not_eq_true', fsmStep_done_iff_ends]
  refine and_congr_right fun hr => and_congr_right fun ha => ?_
  rcases step_fst h hr with ⟨hi, -⟩ | ⟨-, hfst⟩
  · exact absurd hi (ne_idle_of_active ha)
  · rw [hfst]

theorem result_of_done {s t : State} (h : step s = .next t) (hd : t.out.done = true) : t.res ≠ .none := by
  obtain ⟨-, r, -, hne, rfl⟩ := (done_iff_result h).mp hd
  exact hne

theorem resCode_ne_zero {r : Res} (h : r ≠ .none) : r.code ≠ 0 := by
  cases r <;> simp_all [Res.code]

/-- Settles O35: the FSM's mark of a result is its mark of the wait's end. -/
theorem doneExactlyWhenTheWaitEnds : Obligations.DoneExactlyWhenTheWaitEnds := by
  intro s t h
  refine ⟨done_iff_result h, done_iff_ends h, fun hd => ?_⟩
  obtain ⟨-, hres, -⟩ := regWst_fields t
  rw [reg_four, hres]
  exact resCode_ne_zero (result_of_done h hd)

/-- Settles O36, by the three ways in which the FSM's step ends a wait. -/
theorem eachResultHasItsCause : Obligations.EachResultHasItsCause := by
  intro s t hs h hd
  obtain ⟨hr, ha, -⟩ := (done_iff_ends h).mp hd
  have hi := ne_idle_of_active ha
  have hfsm : (fsmStep Config.params s s.nextInputs).2 = true := by simpa [step_done h, hr] using hd
  rcases fsmStep_cases Config.params s s.nextInputs with ⟨-, hw, -⟩ | ⟨-, -, f, st, hw, -, -⟩ |
    ⟨-, hh, g, st, hw, -, -⟩ | ⟨hf, hv, he, hb, hw⟩ | ⟨hf, hv, he, hw⟩
  · simp [hw] at hfsm
  · simp [hw] at hfsm
  · have hres : t.res = .timeout := step_res_written h hr (by rw [hw])
    obtain ⟨htmo, helap⟩ := step_busy_counts h hr hi
    have hend : t.elap = t.tmo := by rw [helap, htmo, (elapNext_active _ hs ha).1 hh]
    simp [hres, hh, hend]
  · have hres : t.res = .ready := step_res_written h hr (by rw [hw])
    have hstat : t.stat = s.nextInputs.xrspData := by
      rw [statHoldsTheLastStatusRead s t h, if_neg (by simp [hr]), if_pos ⟨hf, hv, he⟩]
    exact ⟨fun _ => ⟨hf, hv, he, hstat, hstat ▸ hb⟩, by simp [hres], by simp [hres]⟩
  · have hres : t.res = .xerr := step_res_written h hr (by rw [hw])
    simp [hres, hf, hv, he, step_keeps_stat h hr (by simp [he])]

end Sys2Proof.Machine
end

section
/-! WAIT.READY and SET.TMO in a cycle (42_busy_poll.md R152, R154), and waits and drains over any number of cycles
(R164, R171, R176, R177). -/

namespace Sys2Proof.Machine

/-! ## The two commands -/

theorem exec_waitReady_idle {s : State} (sp : Bool) (hi : s.fst = .idle) :
    exec (.waitReady sp) s = .next (s.startWait (waitStart sp)) := by
  rw [exec_waitReady, acceptInIdle_idle _ hi]

theorem exec_setTmo_idle {s : State} (d : Byte) (hi : s.fst = .idle) :
    exec (.setTmo d) s = .next (s.writeTmo (legalTmo d)) := by
  rw [exec_setTmo, acceptInIdle_idle _ hi]

theorem waitStart_isActive (sp : Bool) : (waitStart sp).isActive = true := by
  rcases waitStart_eq sp with h | h <;> simp [h, Fst.isActive]

theorem legalTmo_toNat (d : Byte) : (legalTmo d).toNat = max d.toNat 1 := by
  unfold legalTmo
  split
  case isTrue h0 => simp [h0]
  case isFalse h0 => bv_omega

/-- The acceptance cycle (R152). The FSM rests in it, so it counts no tick. -/
theorem step_accepts {s : State} {sp : Bool} (hp : presents s.nextInputs (.waitReady sp)) (hi : s.fst = .idle)
    (hl : inLegalRange Config.params s = true) : ∃ t, step s = .next t ∧
      t.waitUnit = ⟨s.tmo, 0, waitStart sp, .none, s.stat⟩ ∧ t.rej = s.rej ∧ t.out.done = false := by
  obtain ⟨t, ht⟩ := step_completes hl
  refine ⟨t, ht, ?_⟩
  have hdone : t.out.done = false := by simp [step_done ht, fsmStep_idle _ _ hi]
  obtain ⟨u, hu, rfl⟩ := step_idle ht hp.1 hi
  rw [consume_presents s hp, exec_waitReady_idle sp hi] at hu
  cases hu
  exact ⟨rfl, rfl, hdone⟩

/-- Settles O25, from the command's two cases and the acceptance cycle. -/
theorem waitReadyStartsOrIsRejected : Obligations.WaitReadyStartsOrIsRejected :=
  ⟨fun sp _ => exec_rejected (.inl ⟨sp, rfl⟩), fun sp _ => exec_waitReady_idle sp, fun _ _ => step_accepts,
    _, rfl, by decide⟩

/-- Settles O26: the next wait starts with ELAP 0, so its first tick hits the deadline exactly when the stored TMO is 1. -/
theorem setTmoStoresALegalDeadline : Obligations.SetTmoStoresALegalDeadline := by
  refine ⟨fun d _ => exec_rejected (.inr ⟨d, rfl⟩), fun d _ => exec_setTmo_idle d, fun s hi =>
    ⟨⟨_, exec_setTmo_idle _ hi, rfl⟩, ⟨_, exec_setTmo_idle _ hi, rfl⟩, ⟨_, exec_setTmo_idle _ hi, rfl⟩,
      fun d sp => ⟨(s.writeTmo (legalTmo d)).startWait (waitStart sp), ?runs, fun inp => ?deadline⟩⟩⟩
  case runs =>
    have hi' : (s.writeTmo (legalTmo d)).fst = .idle := hi
    rw [execAll_cons (exec_setTmo_idle d hi), execAll_cons (exec_waitReady_idle sp hi')]
    rfl
  case deadline =>
    have htmo : (legalTmo d).toNat ≤ 1 ↔ d.toNat ≤ 1 := by rw [legalTmo_toNat]; omega
    simp [deadlineHit_iff, waitStart_isActive, htmo]

/-! ## What each of many cycles keeps -/

/-- A property that every cycle with inputs in `R` keeps holds after any number of such cycles. -/
theorem runSteps_keeps {Q : State → Prop} {R : Inputs → Prop}
    (hstep : ∀ s, Q s → R s.nextInputs → ∃ t, step s = .next t ∧ Q t) (n : Nat) {s : State} (hs : Q s)
    (hin : ∀ i ∈ upcoming n s, R i) : ∃ t, runSteps n s = .next t ∧ Q t := by
  induction n generalizing s with
  | zero => exact ⟨s, rfl, hs⟩
  | succ n ih =>
    obtain ⟨t, ht, htQ⟩ := hstep s hs (hin _ List.mem_cons_self)
    rw [upcoming_succ ht, List.forall_mem_cons] at hin
    rw [runSteps_succ ht]
    exact ih htQ hin.2

theorem noReset_iff (ins : List Inputs) : noReset ins = true ↔ ∀ i ∈ ins, i.rst = false := by
  simp [noReset]

/-- No reset and no response. -/
def unanswered (inp : Inputs) : Prop := inp.rst = false ∧ inp.xrspValid = false

/-- A cycle without a response keeps a drain, and STAT and ELAP at the values of the wait that timed out (R171). -/
theorem step_keeps_drain {stat elap : Byte} (s : State)
    (hs : s.Inv ∧ s.fst = .drain ∧ s.stat = stat ∧ s.elap = elap) (hin : unanswered s.nextInputs) :
    ∃ t, step s = .next t ∧ t.Inv ∧ t.fst = .drain ∧ t.stat = stat ∧ t.elap = elap := by
  obtain ⟨hInv, hf, rfl, rfl⟩ := hs
  obtain ⟨t, ht, hfst, -, -, hstat, helap, -⟩ := drainDiscardsTheResponse s hInv hf hin.1
  exact ⟨t, ht, step_keeps_inv hInv ht, by simpa [hin.2] using hfst, hstat, helap⟩

/-- Settles O51: every cycle keeps the drain, and by the invariant RES is TIMEOUT in it. -/
theorem drainLastsUntilAnswered : Obligations.DrainLastsUntilAnswered := by
  intro n s hs hf hr hv
  have hin : ∀ i ∈ upcoming n s, unanswered i := fun i hi => ⟨(noReset_iff _).mp hr i hi, hv i hi⟩
  obtain ⟨t, ht, htInv, hfst, hstat, helap⟩ := runSteps_keeps step_keeps_drain n ⟨hs, hf, rfl, rfl⟩ hin
  exact ⟨t, ht, hfst, (htInv.drain_after_timeout hfst).1, hstat, helap⟩

/-! ## Ticks and the deadline -/

theorem inLegalRange_of_inv {s : State} (hs : s.Inv) : inLegalRange Config.params s = true :=
  (inLegalRange_iff s).mpr ⟨hs.cnt_legal, hs.tmo_legal⟩

theorem deadlineHit_noTick (s : State) {inp : Inputs} (ht : inp.tick = false) : deadlineHit s inp = false := by
  simp [deadlineHit, countsTick, ht]

theorem tickWrite_noTick (s : State) {inp : Inputs} (ht : inp.tick = false) : tickWrite s inp = none := by
  simp [tickWrite, countsTick, ht]

/-- Before its deadline an active wait counts its ticks without wrap. -/
theorem elapNext_toNat {s : State} (inp : Inputs) (hs : s.Inv) (ha : s.fst.isActive = true) :
    (elapNext s inp).toNat = s.elap.toNat + if inp.tick then 1 else 0 := by
  have hlt := hs.active_before_deadline ha
  cases ht : inp.tick with
  | false => simp [elapNext_eq, countsTick, ht]
  | true =>
    simp only [elapNext_eq, countsTick, ha, ht, Bool.and_self, if_true]
    bv_omega

/-- An active wait ends within any cycles that hold the ticks left to its deadline (R176): a cycle that does not end it
counts its tick and leaves the rest to the cycles after it. -/
theorem wait_ends_by_deadline (n : Nat) {s : State} (hs : s.Inv) (ha : s.fst.isActive = true)
    (hr : noReset (upcoming n s) = true) (hticks : s.tmo.toNat ≤ s.elap.toNat + ticksIn (upcoming n s)) :
    ∃ t ∈ trace n s, t.out.done = true ∧ t.res ≠ .none := by
  induction n generalizing s with
  | zero => exact absurd hticks (not_le.mpr (hs.active_before_deadline ha))
  | succ n ih =>
    obtain ⟨t, ht⟩ := step_completes_of_inv hs
    rw [noReset_iff, upcoming_succ ht, List.forall_mem_cons, ← noReset_iff] at hr
    obtain ⟨hr, hrest⟩ := hr
    rw [upcoming_succ ht, ticksIn, List.countP_cons, ← ticksIn] at hticks
    rw [trace_succ ht]
    cases hd : t.out.done with
    | true => exact ⟨t, List.mem_cons_self, hd, result_of_done ht hd⟩
    | false =>
      have hat : t.fst.isActive = true := by simpa [hd, hr, ha] using done_iff_ends ht
      obtain ⟨htmo, helap⟩ := step_busy_counts ht hr (ne_idle_of_active ha)
      have hleft : t.tmo.toNat ≤ t.elap.toNat + ticksIn (upcoming n t) := by
        rw [htmo, helap, elapNext_toNat _ hs ha]
        omega
      obtain ⟨v, hv, hresult⟩ := ih (step_keeps_inv hs ht) hat hrest hleft
      exact ⟨v, List.mem_cons_of_mem t hv, hresult⟩

/-- No reset, no tick and no acceptance. -/
def unaccepted (inp : Inputs) : Prop := inp.rst = false ∧ inp.tick = false ∧ inp.xreqReady = false

/-- A request that is not accepted is kept by a cycle without a tick (R167). -/
theorem step_keeps_request (s : State) (hs : s.Inv ∧ s.fst = .rdReq) (hin : unaccepted s.nextInputs) :
    ∃ t, step s = .next t ∧ t.Inv ∧ t.fst = .rdReq := by
  obtain ⟨hInv, hf⟩ := hs
  obtain ⟨hr, htick, ha⟩ := hin
  obtain ⟨t, ht, -, -, -, hstays, -⟩ :=
    requestStatesByHandshakeAndDeadline s .rdWait (.inr ⟨hf, rfl⟩) hr (inLegalRange_of_inv hInv)
  exact ⟨t, ht, step_keeps_inv hInv ht, (hstays (deadlineHit_noTick s htick) ha).1.trans hf⟩

/-- Settles O50: an accepted wait is active with ELAP 0, and a request kept has no result by the invariant. -/
theorem everyWaitEndsByItsDeadline : Obligations.EveryWaitEndsByItsDeadline := by
  refine ⟨fun s sp hs hi hp => ?ends, fun n s hs hf hr hquiet => ?stays⟩
  case ends =>
    obtain ⟨t, ht, hunit, -, -⟩ := step_accepts hp hi (inLegalRange_of_inv hs)
    have hfst : t.fst = waitStart sp := congrArg WaitUnit.fst hunit
    have helap : t.elap = 0 := congrArg WaitUnit.elap hunit
    have ha : t.fst.isActive = true := hfst ▸ waitStart_isActive sp
    exact ⟨t, ht, ha, helap, fun n hr hticks =>
      wait_ends_by_deadline n (step_keeps_inv hs ht) ha hr (by simpa [helap] using hticks)⟩
  case stays =>
    have hin : ∀ i ∈ upcoming n s, unaccepted i := fun i hi => ⟨(noReset_iff _).mp hr i hi, hquiet i hi⟩
    obtain ⟨t, ht, htInv, hfst⟩ := runSteps_keeps step_keeps_request n ⟨hs, hf⟩ hin
    exact ⟨t, ht, hfst, htInv.active_no_result (by rw [hfst]; rfl)⟩

/-! ## The shortest waits (R177) -/

/-- The cycle from `s` ends in `t`, with the wait FSM at `w` and `done` at `d`, and has consumed one listed input. -/
structure CycleEnds (s : State) (w : WaitUnit) (d : Bool) (t : State) : Prop where
  step_eq : step s = .next t
  unit_eq : t.waitUnit = w
  done_eq : t.out.done = d
  inputs_eq : t.inputs = s.inputs.tail

/-- What the host sees of a wait's end after a cycle. -/
def endView (t : State) : Bool × Res := (t.out.done, t.res)

theorem CycleEnds.endView_trace {s t : State} {w : WaitUnit} {d : Bool} (h : CycleEnds s w d t) (n : Nat) :
    (trace (n + 1) s).map endView = (d, w.res) :: (trace n t).map endView := by
  rw [trace_succ h.step_eq, List.map_cons, ← h.done_eq, ← h.unit_eq]
  rfl

/-- `step_busy` for one cycle of a run. -/
theorem cycleEnds_busy {s : State} {x : FsmWrites × Bool} (hs : s.Inv) (hr : s.nextInputs.rst = false)
    (hi : s.fst ≠ .idle) (hx : fsmStep Config.params s s.nextInputs = x) :
    ∃ t, t.Inv ∧ CycleEnds s (s.applyFsm x.1).waitUnit x.2 t := by
  obtain ⟨t, ht⟩ := step_completes_of_inv hs
  obtain ⟨hunit, hdone⟩ := step_busy ht hr hi hx
  exact ⟨t, step_keeps_inv hs ht, ht, hunit, hdone, (step_inputs ht).1⟩

theorem cycleEnds_accepts {s : State} {sp : Bool} (hs : s.Inv) (hi : s.fst = .idle)
    (hp : presents s.nextInputs (.waitReady sp)) :
    ∃ t, t.Inv ∧ CycleEnds s ⟨s.tmo, 0, waitStart sp, .none, s.stat⟩ false t := by
  obtain ⟨t, ht, hunit, -, hdone⟩ := step_accepts hp hi (inLegalRange_of_inv hs)
  exact ⟨t, step_keeps_inv hs ht, ht, hunit, hdone, (step_inputs ht).1⟩

/-- A request accepted at once. -/
theorem cycleEnds_request {s : State} {w : Fst} (hs : s.Inv)
    (hf : s.fst = .spReq ∧ w = .spWait ∨ s.fst = .rdReq ∧ w = .rdWait) (hin : s.nextInputs = .ready) :
    ∃ t, t.Inv ∧ CycleEnds s { s.waitUnit with fst := w } false t := by
  have hi : s.fst ≠ .idle := by rcases hf with ⟨hf, -⟩ | ⟨hf, -⟩ <;> simp [hf]
  refine cycleEnds_busy (x := goOn none none (some w)) hs (by rw [hin]; rfl) hi ?_
  rw [hin, fsmStep_request _ _ hf, tickWrite_noTick s rfl, deadlineHit_noTick s rfl]
  rfl

/-- The set-pointer write answered. -/
theorem cycleEnds_spWait {s : State} {e : Byte} (hs : s.Inv) (hf : s.fst = .spWait)
    (hin : s.nextInputs = .response e) : ∃ t, t.Inv ∧ CycleEnds s { s.waitUnit with fst := .rdReq } false t := by
  refine cycleEnds_busy (x := goOn none none (some .rdReq)) hs (by rw [hin]; rfl) (by simp [hf]) ?_
  rw [hin, fsmStep_spWait_response _ hf rfl rfl, tickWrite_noTick s rfl, deadlineHit_noTick s rfl]
  rfl

/-- The status read answered with a byte that is not busy. -/
theorem cycleEnds_rdWait_ready {s : State} {d : Byte} (hs : s.Inv) (hf : s.fst = .rdWait)
    (hb : d.getLsbD 0 = false) (hin : s.nextInputs = .response d) :
    ∃ t, t.Inv ∧ CycleEnds s { s.waitUnit with fst := .idle, res := .ready, stat := d } true t := by
  refine cycleEnds_busy (x := endWait none (some d) .ready .idle) hs (by rw [hin]; rfl) (by simp [hf]) ?_
  rw [hin, fsmStep_rdWait_ready Config.params (inp := .response d) hf rfl rfl hb, tickWrite_noTick s rfl]
  rfl

/-- The status read answered with a busy byte. -/
theorem cycleEnds_rdWait_busy {s : State} {d : Byte} (hs : s.Inv) (hf : s.fst = .rdWait)
    (hb : d.getLsbD 0 = true) (hin : s.nextInputs = .response d) :
    ∃ t, t.Inv ∧ CycleEnds s { s.waitUnit with fst := .rdReq, stat := d } false t := by
  refine cycleEnds_busy (x := goOn none (some d) (some .rdReq)) hs (by rw [hin]; rfl) (by simp [hf]) ?_
  rw [hin, fsmStep_rdWait_busy Config.params (inp := .response d) hf rfl rfl hb, tickWrite_noTick s rfl,
    deadlineHit_noTick s rfl]
  rfl

/-- The poll that ends a wait, from its request. -/
theorem endView_trace_poll {s : State} {d : Byte} (hs : s.Inv) (hf : s.fst = .rdReq) (hb : d.getLsbD 0 = false)
    (hin : s.inputs = [.ready, .response d]) : (trace 2 s).map endView = [(false, .none), (true, .ready)] := by
  obtain ⟨t, htInv, ht⟩ := cycleEnds_request hs (.inr ⟨hf, rfl⟩) (nextInputs_cons hin)
  have htin : t.inputs = [.response d] := by simp [ht.inputs_eq, hin]
  obtain ⟨u, -, hu⟩ := cycleEnds_rdWait_ready htInv (congrArg WaitUnit.fst ht.unit_eq) hb (nextInputs_cons htin)
  have hres : s.res = .none := hs.active_no_result (by rw [hf]; rfl)
  rw [ht.endView_trace, hu.endView_trace]
  simp [State.waitUnit, hres, trace]

/-- Settles O52, cycle by cycle. -/
theorem shortestWaits : Obligations.ShortestWaits := by
  refine ⟨fun s d hs hi hb => ?noPointer, fun s d e hs hi hb => ?pointer, fun s d hs hf hb => ?poll⟩
  case noPointer =>
    have hp : presents (.command 0x3000) (.waitReady false) := ⟨rfl, rfl, by decide⟩
    obtain ⟨t, htInv, ht⟩ := cycleEnds_accepts
      (s := { s with inputs := [Inputs.command 0x3000, .ready, .response d] }) (inv_congr hs rfl rfl) hi hp
    refine (ht.endView_trace 2).trans ?_
    rw [endView_trace_poll htInv (congrArg WaitUnit.fst ht.unit_eq) hb ht.inputs_eq]
  case pointer =>
    have hp : presents (.command 0x3100) (.waitReady true) := ⟨rfl, rfl, by decide⟩
    obtain ⟨t, htInv, ht⟩ := cycleEnds_accepts
      (s := { s with inputs := [Inputs.command 0x3100, .ready, .response e, .ready, .response d] })
      (inv_congr hs rfl rfl) hi hp
    obtain ⟨u, huInv, hu⟩ := cycleEnds_request htInv (.inl ⟨congrArg WaitUnit.fst ht.unit_eq, rfl⟩)
      (nextInputs_cons ht.inputs_eq)
    have huin : u.inputs = [.response e, .ready, .response d] := by simp [hu.inputs_eq, ht.inputs_eq]
    obtain ⟨v, hvInv, hv⟩ := cycleEnds_spWait huInv (congrArg WaitUnit.fst hu.unit_eq) (nextInputs_cons huin)
    have hvin : v.inputs = [.ready, .response d] := by simp [hv.inputs_eq, huin]
    refine (ht.endView_trace 4).trans ?_
    rw [hu.endView_trace, hv.endView_trace, endView_trace_poll hvInv (congrArg WaitUnit.fst hv.unit_eq) hb hvin]
    simp [hu.unit_eq, ht.unit_eq]
  case poll =>
    obtain ⟨t, htInv, ht⟩ := cycleEnds_request (s := { s with inputs := [.ready, .response d] })
      (inv_congr hs rfl rfl) (.inr ⟨hf, rfl⟩) rfl
    obtain ⟨u, -, hu⟩ := cycleEnds_rdWait_busy htInv (congrArg WaitUnit.fst ht.unit_eq) hb
      (nextInputs_cons ht.inputs_eq)
    refine ⟨u, ?_, ?_, hu.done_eq⟩
    · rw [runSteps_succ ht.step_eq, runSteps_succ hu.step_eq]
      rfl
    · rw [hu.unit_eq, ht.unit_eq]
      simp [State.waitUnit, hf]

end Sys2Proof.Machine
end

section
/-! The block never traps (60_exceptions.md R200): when a cycle completes, and where each error of the error table is
recorded instead (R208). -/

namespace Sys2Proof.Machine

/-! ## The one stop -/

/-- Settles O9: a reset cycle and a cycle from the legal ranges complete, the rest are refused. -/
theorem stepStopsOnlyWithoutReset : Obligations.StepStopsOnlyWithoutReset := by
  refine fun s => ⟨?completes, fun hr hl => ?refused⟩
  case completes =>
    rintro (hr | hl)
    · exact ⟨_, runCycle_reset hr⟩
    · exact step_completes ((inLegalRange_iff s).mpr hl)
  case refused =>
    rw [← inLegalRange_iff, Bool.not_eq_true] at hl
    exact runCycle_refused hr hl

/-! ## The error records -/

theorem resCode_injective : Function.Injective Res.code
  | .none, .none, _ | .ready, .ready, _ | .timeout, .timeout, _ | .xerr, .xerr, _ => rfl

theorem verdictCode_injective : Function.Injective Verdict.code
  | .incomplete, .incomplete, _ | .valid, .valid, _ | .romInvalid, .romInvalid, _ | .crcMismatch, .crcMismatch, _ => rfl

/-- VCODE, bits 1:0 of CRCRES (R42). -/
theorem regCrcres_lower_bits (P : Params) (s : State) : (regCrcres P s).extractLsb' 0 2 = (verdict P s).code := by
  unfold regCrcres
  cases verdict P s <;> rfl

/-- A full unit's verdict is by the family code, then the remainder; a unit that is not full has neither error. -/
theorem verdict_errors_iff {s : State} (hn : s.cnt.toNat ≤ 8) :
    (verdict Config.params s = .romInvalid ↔ s.cnt = 8 ∧ s.fam = 0) ∧
    (verdict Config.params s = .crcMismatch ↔ s.cnt = 8 ∧ s.fam ≠ 0 ∧ s.crc ≠ 0) := by
  have hfull : s.cnt = 8 ↔ ¬ s.cnt.toNat < 8 := by bv_omega
  rw [verdict_eight, hfull]
  split_ifs <;> simp_all

/-- Settles O39: each record is a field of WST, CRCRES or CRCST, and the codes tell results and verdicts apart. -/
theorem errorRecords : Obligations.ErrorRecords := by
  intro s hn
  obtain ⟨-, hres, hrej, hill, -⟩ := regWst_fields s
  obtain ⟨-, -, hovf⟩ := regCrcst_upper_bits Config.params s
  obtain ⟨hrom, hmis⟩ := verdict_errors_iff hn
  simp only [recorded, reg_one, reg_three, reg_four, hres, hrej, hill, hovf, regCrcres_lower_bits, beq_iff_eq,
    true_and, and_true]
  exact ⟨resCode_injective.eq_iff' rfl, resCode_injective.eq_iff' rfl,
    (verdictCode_injective.eq_iff' rfl).trans hrom, (verdictCode_injective.eq_iff' rfl).trans hmis⟩

end Sys2Proof.Machine
end

section
/-! Reset (70_reset_and_hazards.md R230): the cycle with `rst`, the view it leaves, the invariant at the start state. -/

namespace Sys2Proof.Machine

/-! ## The reset cycle -/

/-- A cycle with `rst` presents no request and pulses no `done`; the other ports show the start-of-cycle state. -/
theorem outputs_reset (P : Params) (s : State) {inp : Inputs} (h : inp.rst = true) : outputs P s inp =
    { rdData := reg P s inp.rdAddr, xreqValid := false, xreqKind := s.fst == .rdReq,
      xreqCode := if s.fst = .spReq then P.srpCmd else 0,
      xreqParam := if s.fst = .spReq then P.statusPtr else 0, done := false } := by
  simp [outputs, h]

theorem step_reset {s : State} (h : s.nextInputs.rst = true) :
    step s = .next ((s.loadReset Config.params).endCycle (outputs Config.params s s.nextInputs)) := runCycle_reset h

/-- The registers show the block's elements alone, which a reset cycle gives the values of the start state. -/
theorem view_loadReset_endCycle (s : State) (o : Outputs) :
    view Config.params ((s.loadReset Config.params).endCycle o) = view Config.params State.reset := rfl

/-- Settles O40: a reset cycle loads the reset values with its own outputs, and its view is the start state's. -/
theorem resetLoadsTheResetState : Obligations.ResetLoadsTheResetState := by
  refine fun s h => ⟨?loads, fun t ht => ?shows⟩
  case loads =>
    rw [step_reset h, outputs_reset _ _ h]
    rfl
  case shows =>
    obtain ⟨-, -, -, -, hview⟩ := modelStartsAtResetState
    cases (step_reset h).symm.trans ht
    rw [view_loadReset_endCycle, hview]

/-! ## The invariant -/

/-- Settles O49: loading the reset values into the start state gives the start state. -/
theorem invariantHoldsAtReset : Obligations.InvariantHoldsAtReset := inv_loadReset State.reset

end Sys2Proof.Machine
end
